-- ==== Sys2Proof/Word.lean ====
section
/-! DEFINITION. The word types of the block and its plain data types: bytes, banks, addresses, command words, the
seven-byte exchange buffer and its two lengths, chip-select levels, the answer of a transport primitive. -/

namespace Sys2Proof

/-- A byte of a frame or of a device register (R50: every addressable unit is one byte of 8 bits). -/
abbrev Byte := BitVec 8

/-- A bank number, one of exactly four values (R20, R92). -/
abbrev Bank := BitVec 2

/-- A register address: 7 bits, 0x00 to 0x7F (R51). The direction bit is no part of it. -/
abbrev Addr := BitVec 7

/-- A command word `cmd[23:0]` (R90). -/
abbrev CmdWord := BitVec 24

/-- `xn`: how many bytes of the exchange buffer the current frame uses, 2 or 7 (R27, R109). -/
inductive FrameLen where
  | two
  | seven
  deriving DecidableEq, Repr, Inhabited

/-- The length as a number. -/
def FrameLen.toNat : FrameLen → Nat
  | .two => 2
  | .seven => 7

/-- `xb[0..6]`, the exchange buffer (R27). -/
structure XBuf where
  b0 : Byte
  b1 : Byte
  b2 : Byte
  b3 : Byte
  b4 : Byte
  b5 : Byte
  b6 : Byte
  deriving DecidableEq, Repr, Inhabited

/-- `xb[0..xn-1]`: the bytes of the frame, first byte sent first (R66). -/
def XBuf.frame (x : XBuf) : FrameLen → List Byte
  | .two => [x.b0, x.b1]
  | .seven => [x.b0, x.b1, x.b2, x.b3, x.b4, x.b5, x.b6]

/-- `xb[1..xn-1]`: the data bytes of a read response (R59, R103: byte 0 is discarded). -/
def XBuf.data (x : XBuf) : FrameLen → List Byte
  | .two => [x.b1]
  | .seven => [x.b1, x.b2, x.b3, x.b4, x.b5, x.b6]

/-- The level of the chip-select line: high is deasserted, low is asserted (R12, R32). -/
inductive Level where
  | high
  | low
  deriving DecidableEq, Repr, Inhabited

/-- The answer of the transport to one primitive invocation (R12, R14): ok; a failure with its payload; or no answer
at all, ever (R189, R238). The bytes of an ok answer to `transfer` are the device's business. -/
inductive Answer where
  | ok
  | fail (payload : Nat)
  | silent
  deriving DecidableEq, Repr, Inhabited

/-- `CommErr`, the opaque error of a data primitive (R12): carried unchanged, never looked into.
DESIGN CHOICE (log 13): the unconstrained type is represented by naturals in a wrapper. -/
structure CommErr where
  payload : Nat
  deriving DecidableEq, Repr, Inhabited

/-- `PinErr`, the opaque error of the chip-select line (R12). DESIGN CHOICE (log 13). -/
structure PinErr where
  payload : Nat
  deriving DecidableEq, Repr, Inhabited

/-- `VEC_BYTE_ORDER` (R8, R69). -/
inductive ByteOrder where
  | big
  | little
  deriving DecidableEq, Repr, Inhabited

/-- The three signed 16-bit values of one vector sample, numbered 0, 1, 2 by address; no axis is attached (R69). -/
structure Vec3 where
  v0 : Int
  v1 : Int
  v2 : Int
  deriving DecidableEq, Repr

end Sys2Proof
end

