-- ==== Sys2Proof/Syntax.lean ====
section
/-! DEFINITION. The seven commands (R105), one constructor per row of spec/opcode_table.json, the raw fields of a
command word (R90), and the result of decoding one. -/

namespace Sys2Proof

/-- A command with its operands, in the order bank, address, value (R110). The operand types are the fields' own widths
(R92 to R94), so an address with bit 7 set cannot be written down (R51, R107). -/
inductive Instr where
  /-- `SELB b`, select bank `b` (R140). -/
  | selb (b : Bank)
  /-- `RDR a`, raw single read (R120). -/
  | rdr (a : Addr)
  /-- `WRR a, v`, raw single write (R121). -/
  | wrr (a : Addr) (v : Byte)
  /-- `RDB b, a`, banked single read (R151). -/
  | rdb (b : Bank) (a : Addr)
  /-- `WRB b, a, v`, banked single write (R152). -/
  | wrb (b : Bank) (a : Addr) (v : Byte)
  /-- `RDV a`, raw six-byte read (R122). -/
  | rdv (a : Addr)
  /-- `RDVB b, a`, banked six-byte read (R153). -/
  | rdvb (b : Bank) (a : Addr)
  deriving DecidableEq, Repr

/-- The six fields of the command word, `{op, z1, bank, z0, addr, data}` (R90). -/
structure CmdFields where
  op : BitVec 3
  z1 : BitVec 3
  bank : Bank
  z0 : BitVec 1
  addr : Addr
  data : Byte
  deriving DecidableEq, Repr

/-- Why a command word is illegal (R106). -/
inductive IllegalReason where
  /-- `op` = 0 is reserved (R91). -/
  | reservedOp
  /-- a bit of `z1` is set (R95). -/
  | z1NotZero
  /-- `z0` is set: the place of the direction bit (R95, R107). -/
  | z0NotZero
  /-- `bank` is not zero in a command that does not use it (R104). -/
  | unusedBank
  /-- `addr` is not zero in a command that does not use it (R104). -/
  | unusedAddr
  /-- `data` is not zero in a command that does not use it (R104). -/
  | unusedData
  deriving DecidableEq, Repr

/-- What a command word decodes to (R112): a command, or an illegal word with the first reason found. -/
inductive Decoded where
  | cmd (i : Instr)
  | illegal (why : IllegalReason)
  deriving DecidableEq, Repr

/-- A row of the opcode map (R105): a word `w` is that command when `w & mask = bits`. -/
structure OpcodeRow where
  mnemonic : String
  bits : CmdWord
  mask : CmdWord
  deriving DecidableEq, Repr

end Sys2Proof
end

