-- ==== Sys2Proof/WellFormed.lean ====
section
/-! DEFINITION. Well-formedness of the fields of a command word (R104 to R106), one check per reason. An `Instr` needs
no check of its own: its operand types are the fields' widths; that its fields pass these checks is
`Instr.wellFormed` (Decode.lean). -/

namespace Sys2Proof

/-- R91: `op` = 0 is reserved. -/
def CmdFields.opAllowed (f : CmdFields) : Bool := f.op != 0

/-- R95: `z1` must be 0. -/
def CmdFields.z1Zero (f : CmdFields) : Bool := f.z1 == 0

/-- R95, R107: `z0` must be 0. -/
def CmdFields.z0Zero (f : CmdFields) : Bool := f.z0 == 0

/-- R92, R104: only `SELB` (1), `RDB` (4), `WRB` (5) and `RDVB` (7) use `bank`. -/
def CmdFields.usesBank (f : CmdFields) : Bool := f.op == 1 || f.op == 4 || f.op == 5 || f.op == 7

/-- R93, R104: every command but `SELB` (1) uses `addr`. -/
def CmdFields.usesAddr (f : CmdFields) : Bool := f.op != 1

/-- R94, R104: only `WRR` (3) and `WRB` (5) use `data`. -/
def CmdFields.usesData (f : CmdFields) : Bool := f.op == 3 || f.op == 5

/-- R104: an unused field is zero. -/
def CmdFields.unusedZero (f : CmdFields) : Bool :=
  (f.usesBank || f.bank == 0) && (f.usesAddr || f.addr == 0) && (f.usesData || f.data == 0)

/-- A word's fields are those of a legal command: none of the conditions of R106 holds. -/
def CmdFields.wellFormed (f : CmdFields) : Bool := f.opAllowed && f.z1Zero && f.z0Zero && f.unusedZero

end Sys2Proof
end

