-- ==== Sys2Proof/Decode.lean ====
section
/-! DEFINITION. The decoder of R112, total on all 2^24 words and rejecting by reason; after it the encoder of R105, and
the match and mask table of R105. -/

namespace Sys2Proof

/-- The slices of R90. -/
def unpackFields (w : CmdWord) : CmdFields where
  op := w.extractLsb' 21 3
  z1 := w.extractLsb' 18 3
  bank := w.extractLsb' 16 2
  z0 := w.extractLsb' 15 1
  addr := w.extractLsb' 8 7
  data := w.extractLsb' 0 8

/-- Select the command by `op` once the reserved bits are zero, checking the fields it does not use (R112). -/
def decodeFields (f : CmdFields) : Decoded :=
  if f.z1 ≠ 0 then .illegal .z1NotZero
  else if f.z0 ≠ 0 then .illegal .z0NotZero
  else if f.op = 0 then .illegal .reservedOp
  else if f.op = 1 then
    if f.addr ≠ 0 then .illegal .unusedAddr
    else if f.data ≠ 0 then .illegal .unusedData
    else .cmd (.selb f.bank)
  else if f.op = 2 then
    if f.bank ≠ 0 then .illegal .unusedBank
    else if f.data ≠ 0 then .illegal .unusedData
    else .cmd (.rdr f.addr)
  else if f.op = 3 then
    if f.bank ≠ 0 then .illegal .unusedBank
    else .cmd (.wrr f.addr f.data)
  else if f.op = 4 then
    if f.data ≠ 0 then .illegal .unusedData
    else .cmd (.rdb f.bank f.addr)
  else if f.op = 5 then .cmd (.wrb f.bank f.addr f.data)
  else if f.op = 6 then
    if f.bank ≠ 0 then .illegal .unusedBank
    else if f.data ≠ 0 then .illegal .unusedData
    else .cmd (.rdv f.addr)
  else
    if f.data ≠ 0 then .illegal .unusedData
    else .cmd (.rdvb f.bank f.addr)

/-- The decoding procedure of R112. -/
def decode (w : CmdWord) : Decoded := decodeFields (unpackFields w)

/-- The fields of a command's word: its `op` (R91), its operands, zero elsewhere (R104, R105). -/
def Instr.fields : Instr → CmdFields
  | .selb b => ⟨1, 0, b, 0, 0, 0⟩
  | .rdr a => ⟨2, 0, 0, 0, a, 0⟩
  | .wrr a v => ⟨3, 0, 0, 0, a, v⟩
  | .rdb b a => ⟨4, 0, b, 0, a, 0⟩
  | .wrb b a v => ⟨5, 0, b, 0, a, v⟩
  | .rdv a => ⟨6, 0, 0, 0, a, 0⟩
  | .rdvb b a => ⟨7, 0, b, 0, a, 0⟩

/-- The word is the concatenation `{op, z1, bank, z0, addr, data}` (R90). -/
def packFields (f : CmdFields) : CmdWord := f.op ++ f.z1 ++ f.bank ++ f.z0 ++ f.addr ++ f.data

/-- The command word of a command (R105). -/
def encode (i : Instr) : CmdWord := packFields i.fields

/-- A command is well-formed when the fields of its word are those of a legal command (R106). -/
def Instr.wellFormed (i : Instr) : Bool := i.fields.wellFormed

/-- The mnemonic of a command (R110). -/
def Instr.mnemonic : Instr → String
  | .selb _ => "SELB"
  | .rdr _ => "RDR"
  | .wrr _ _ => "WRR"
  | .rdb _ _ => "RDB"
  | .wrb _ _ _ => "WRB"
  | .rdv _ => "RDV"
  | .rdvb _ _ => "RDVB"

/-- The opcode map with its match and mask columns (R105). -/
def opcodeRows : List OpcodeRow :=
  [⟨"SELB", 0x200000, 0xFCFFFF⟩,
   ⟨"RDR", 0x400000, 0xFF80FF⟩,
   ⟨"WRR", 0x600000, 0xFF8000⟩,
   ⟨"RDB", 0x800000, 0xFC80FF⟩,
   ⟨"WRB", 0xA00000, 0xFC8000⟩,
   ⟨"RDV", 0xC00000, 0xFF80FF⟩,
   ⟨"RDVB", 0xE00000, 0xFC80FF⟩]

/-- A word is that row's command when `w & mask = match` (R105). -/
def OpcodeRow.hits (r : OpcodeRow) (w : CmdWord) : Bool := w &&& r.mask == r.bits

/-- A command word from `nbits` bits numbered as spec/opcode_table.json numbers them; the bits above `nbits` are zero.
A command word has one length, 24 bits (R109), so a longer word has no reading. -/
def tableWord (nbits w : Nat) : CmdWord := BitVec.ofNat 24 (w % 2 ^ nbits)

/-- The instruction the decoder reads from a word of the opcode table. -/
def decodeTableWord (nbits w : Nat) : Option Instr :=
  if nbits ≤ 24 then
    match decode (tableWord nbits w) with
    | .cmd i => some i
    | .illegal _ => none
  else none

end Sys2Proof
end

