-- ==== Sys2Proof/Config.lean ====
section
/-! DEFINITION. What an implementation fixes (the five named parameters of R8) and the free values: constants with no
body, so that nothing can be proved of a value the spec leaves open. Each free value is applied to one of the
counters `State.tick` and `State.drops` (log 8). -/

namespace Sys2Proof

/-- `DOUBLE_FAULT_STATUS` (R8, R63): what is reported when the data primitive and the deassertion both fail. -/
inductive DoubleFault where
  | comm
  | pin
  deriving DecidableEq, Repr, Inhabited

/-- The open parameters of R8, fixed for the life of the block. They stand in State so that every statement holds for
every setting of them (log 2). -/
structure Params where
  /-- `BANK_SEL_SHIFT`, 0 to 6. -/
  bankSelShift : Fin 7
  /-- `SKIP_REDUNDANT`. -/
  skipRedundant : Bool
  /-- `RELEASE_ON_ASSERT_FAIL`. -/
  releaseOnAssertFail : Bool
  /-- `DOUBLE_FAULT_STATUS`. -/
  doubleFault : DoubleFault
  /-- `VEC_BYTE_ORDER`; only the host-side `vec3` depends on it. -/
  vecByteOrder : ByteOrder
  deriving DecidableEq, Repr, Inhabited

/-- What the working registers hold when no rule says: after a response and after RST (R26, R27, R202, R220, U13). -/
structure Leftovers where
  op : BitVec 3
  bank : Bank
  addr : Addr
  data : Byte
  xb : XBuf
  xn : FrameLen
  deriving DecidableEq, Repr, Inhabited

/-- One byte that stands in a register of the device without a frame of the block having put it there: the register
(R50) and the byte. -/
structure DevPut where
  bank : Bank
  addr : Addr
  byte : Byte
  deriving DecidableEq, Repr, Inhabited

/-- How an exact value is rounded to a floating-point number; the source fixes none (R179). -/
inductive Rounding where
  | nearestEven
  | nearestAway
  | towardZero
  | up
  | down
  deriving DecidableEq, Repr, Inhabited

/-- In which precision the temperature formula is evaluated; the source fixes none beyond the type of the result (R179). -/
inductive TempEval where
  /-- each operation in 32-bit floating point -/
  | steps32
  /-- each operation in 64-bit floating point, the result then rounded to 32 bits -/
  | steps64
  /-- exactly, the result then rounded to 32 bits -/
  | exact
  deriving DecidableEq, Repr, Inhabited

/-- `VEC_BYTE_ORDER` has no default (R8, R69: "do not guess a convention"): a constant of unknown value (log 3). -/
opaque Config.vecByteOrder : ByteOrder

/-- Whether the raw temperature is signed is not in the source (R178, U31): a constant of unknown value (log 16). -/
opaque Config.rawTempSigned : Bool

/-- The rounding of the temperature arithmetic is not in the source (R179): a constant of unknown value (log 16). -/
opaque Config.tempRounding : Rounding

/-- The precision of the temperature arithmetic is not in the source (R179): a constant of unknown value (log 16). -/
opaque Config.tempEval : TempEval

/-- Which byte the device's bank-select register holds after reset is not in the source; "arbitrary" (R41, R45, R221):
a constant of unknown value (log 18). -/
opaque Config.dSelAtReset : Byte

/-- Free value: the unconstrained transport's answer to an invocation (R34), and the mock's to a block read to which it
gives no meaning (R71, U19). -/
opaque Config.freeAnswer : Nat → Answer

/-- Free value: the bytes an unconstrained transport returns (R34, U17), and those of a block read to which the mock
gives no meaning (R71, U19). -/
opaque Config.freeResponse : Nat → XBuf

/-- Free value: the exchange buffer after a failed `transfer` (R61, U12). -/
opaque Config.freeBuffer : Nat → XBuf

/-- Free value: byte 0 of the mock's answer to a read frame (R65: "any byte", U18). -/
opaque Config.freeEcho : Nat → Byte

/-- Free value: the chip-select level after a failed `cs_low` or `cs_high` (R32). -/
opaque Config.freeLevel : Nat → Level

/-- Free value: what has changed in the device behind the unconstrained transport when an invocation has been answered:
any bytes in any registers, 0x7F among them (R75, R144, R232, R234; U14 to U16, U22, U24). -/
opaque Config.freeDevice : Nat → List DevPut

/-- Free value: latches, exchange buffer and `xn` after a response and after RST (R26, R27, R202, R220). -/
opaque Config.freeLeftovers : Nat → Leftovers

end Sys2Proof
end

