-- ==== Sys2Proof/Machine/State.lean ====
section
/-! DEFINITION. The state of the machine: the block (R20 to R28), its ports (R11), its parameters (R8), the
environment the spec describes (transport R32, R34; device R35, R36; host R33), and the counters of the free values. -/

namespace Sys2Proof.Machine

/-- `ph`, the phase of the command in progress (R24). The value 7 is never taken. -/
inductive Phase where
  | idle
  | sLow
  | sData
  | sHigh
  | aLow
  | aData
  | aHigh
  deriving DecidableEq, Repr

/-- `pend`, the pending-error latch of the transaction in progress (R28). -/
inductive Pend where
  | none
  | comm (c : CommErr)
  | pin (p : PinErr)
  deriving DecidableEq, Repr

/-- The status of a response with the payload it carries (R96, R97). -/
inductive Status where
  | ok
  | comm (c : CommErr)
  | pin (p : PinErr)
  | illegal
  deriving DecidableEq, Repr

/-- A response on `RSP` (R96): the status with its payload, and `rdata[1..len]`. -/
structure Response where
  status : Status
  rdata : List Byte
  deriving DecidableEq, Repr

/-- `len` of R96: the number of data bytes. -/
def Response.len (r : Response) : Nat := r.rdata.length

/-- What a transaction or a procedure returns (R14): OK with bytes, COMM(c) or PIN(p). -/
inductive Result where
  | ok (bytes : List Byte)
  | comm (c : CommErr)
  | pin (p : PinErr)
  deriving DecidableEq, Repr

/-- The exceptions of the block (R190 to R192). -/
inductive Exc where
  | comm (c : CommErr)
  | pin (p : PinErr)
  | illegal
  deriving DecidableEq, Repr

/-- One token of an event trace: a primitive invocation with its arguments and the transport's answer (R16). -/
inductive Event where
  /-- `L` -/
  | low
  /-- `L!p` -/
  | lowErr (p : PinErr)
  /-- `H` -/
  | high
  /-- `H!p` -/
  | highErr (p : PinErr)
  /-- `W[..]` -/
  | write (sent : List Byte)
  /-- `W[..]!c` -/
  | writeErr (sent : List Byte) (c : CommErr)
  /-- `T[..]→[..]` -/
  | transfer (sent resp : List Byte)
  /-- `T[..]!c` -/
  | transferErr (sent : List Byte) (c : CommErr)
  deriving DecidableEq, Repr

/-- The two environments of R34: `free`, the transport whose answers nothing constrains, and `mock`, the reference
device of R64 and R65. -/
inductive Transport where
  | free
  | mock
  deriving DecidableEq, Repr

/-- How much of the block's work one step of the machine is: a whole command by its command rule (40 to 42), or one
acceptance or one invocation (R185). Both are the spec's views of the same commands (44_sequencer.md). -/
inductive Grain where
  | command
  | invocation
  deriving DecidableEq, Repr

/-- `d_reg`: a sparse register file, cells in rising order of their key 128*b + a (R36). -/
abbrev Memory := List Host.Cell

/-- The host (R33, R170): its program of command words, the index of the next one, whether it has stopped after a
status that is not OK, whether it is a host that goes on instead (R205), and the attempt counter of `soft_reset`. -/
structure HostState where
  prog : List CmdWord
  next : Nat
  stopped : Bool
  goesOn : Bool
  attempt : Nat
  deriving DecidableEq, Repr

/-- The machine. INVENTORY.md, '## State', names the rule and the reset value of each field. -/
structure State where
  /-- R8 -/
  params : Params
  /-- `cur_bank`, the shadow (R20) -/
  curBank : Bank
  /-- `ph` (R24) -/
  ph : Phase
  /-- `c_op` (R26) -/
  cOp : BitVec 3
  /-- `c_bank` (R26) -/
  cBank : Bank
  /-- `c_addr` (R26) -/
  cAddr : Addr
  /-- `c_data` (R26) -/
  cData : Byte
  /-- `xb[0..6]` (R27) -/
  xb : XBuf
  /-- `xn` (R27) -/
  xn : FrameLen
  /-- `pend` (R28) -/
  pend : Pend
  /-- the `RST` port is asserted (R11, R220) -/
  rst : Bool
  /-- the responses sent on `RSP`, oldest first (R11, R96) -/
  rsps : List Response
  /-- the event trace of the `BUS` port, oldest first (R16) -/
  trace : List Event
  /-- the chip-select line (R32) -/
  cs : Level
  /-- which environment answers (R34) -/
  transport : Transport
  /-- answers fixed in advance, for the next invocations in order (R34, R64) -/
  script : List Answer
  /-- the model's own: the step granularity (R185; log 15) -/
  grain : Grain
  /-- the model's own: how many invocations have been answered, the counter of the environment's free values -/
  tick : Nat
  /-- the model's own: how often the working registers have been given up, the counter of their free values -/
  drops : Nat
  /-- `d_sel` (R35) -/
  dSel : Byte
  /-- `d_reg` (R36) -/
  mem : Memory
  /-- R33 -/
  host : HostState
  deriving DecidableEq, Repr

/-- No behaviour the spec describes stops the machine: every command ends with a status on `RSP` (R190 to R192), or
waits in its phase for a transport that never answers (R189). So there is no fault; nobody raises one. -/
inductive Fault where
  deriving DecidableEq, Repr

/-- Why a step has no meaning. -/
inductive Refusal where
  /-- Raised by Dispatch's arms only, for an instruction with no meaning yet (safe); no arm does. -/
  | notModelled (mnemonic : String)
  deriving DecidableEq, Repr

/-- The outcome of a procedure that invokes the transport: it returned a value in a state, or the transport has not
answered and the block waits in its phase (R189, R238). -/
inductive Ran (α : Type) where
  | done (a : α) (s : State)
  | waiting (s : State)
  deriving DecidableEq, Repr

/-- The state right after reset: `cur_bank` 0, `ph` IDLE, `pend` NONE (R45, R220), the parameters at their defaults
(R8), chip-select high (R224), `d_sel` arbitrary (R41, R45; log 18). The other values are named in the log: latches and
buffer (log 1), device contents (log 4), the unconstrained transport (log 5), no program (log 7). A step is one
acceptance or one invocation, as R185 says (log 15). -/
def State.reset : State where
  params :=
    { bankSelShift := 0, skipRedundant := false, releaseOnAssertFail := true, doubleFault := .comm,
      vecByteOrder := Config.vecByteOrder }
  curBank := 0
  ph := .idle
  cOp := 0
  cBank := 0
  cAddr := 0
  cData := 0
  xb := ⟨0, 0, 0, 0, 0, 0, 0⟩
  xn := .two
  pend := .none
  rst := false
  rsps := []
  trace := []
  cs := .high
  transport := .free
  script := []
  grain := .invocation
  tick := 0
  drops := 0
  dSel := Config.dSelAtReset
  mem := []
  host := { prog := [], next := 0, stopped := false, goesOn := false, attempt := 0 }

end Sys2Proof.Machine
end

