-- ==== Sys2Proof/Machine/Flags.lean ====
section
/-! DEFINITION. The block has no flags (R31): the outcome of a command is carried only by its response. Here are the
status codes and payloads of a response (R96, R97) and the rules that choose the status of a transaction (R63, R199)
and keep the pending error (R186). -/

namespace Sys2Proof.Machine

/-- The status codes of R97. -/
def Status.code : Status → BitVec 2
  | .ok => 0
  | .comm _ => 1
  | .pin _ => 2
  | .illegal => 3

/-- The payload of a response, present only with COMM and PIN (R96). -/
def Status.payload : Status → Option Nat
  | .ok => none
  | .comm c => some c.payload
  | .pin p => some p.payload
  | .illegal => none

/-- The encodings of `ph` (R24). -/
def Phase.code : Phase → BitVec 3
  | .idle => 0
  | .sLow => 1
  | .sData => 2
  | .sHigh => 3
  | .aLow => 4
  | .aData => 5
  | .aHigh => 6

/-- The status of a transaction whose assertion succeeded, from the answers of its data primitive and of `cs_high`
(R61, R63). `data` are the bytes it returns if neither failed. -/
def xactResult (df : DoubleFault) (data : List Byte) : Option CommErr → Option PinErr → Result
  | some c, some p =>
    match df with
    | .comm => .comm c
    | .pin => .pin p
  | some c, none => .comm c
  | none, some p => .pin p
  | none, none => .ok data

/-- `pend` as the data primitive's answer leaves it (R188 T5, R189 T8). -/
def pendOfData : Option CommErr → Pend
  | some c => .comm c
  | none => .none

/-- `note_high(r)` of R186: what the answer of `cs_high` makes of the pending error. -/
def noteHigh (df : DoubleFault) : Option PinErr → Pend → Pend
  | none, q => q
  | some p, .none => .pin p
  | some p, .comm c =>
    match df with
    | .comm => .comm c
    | .pin => .pin p
  | some _, .pin p1 => .pin p1

/-- The exceptions as statuses of a response (R190 to R192). -/
def Exc.status : Exc → Status
  | .comm c => .comm c
  | .pin p => .pin p
  | .illegal => .illegal

end Sys2Proof.Machine
end

