-- ==== Sys2Proof/Machine/Memory.lean ====
section
/-! DEFINITION. The device's register file `d_reg` (R36) as a list of cells in one canonical form: keys strictly rising,
every key that of a register, no cell equal to what an unlisted register reads as. -/

namespace Sys2Proof.Machine

/-- What a register reads as that nothing has written. DESIGN CHOICE (log 4, unsafe): the source gives no reset value
(R41); 0x00 is the convention of spec/95_test_vectors.md for its mock. -/
def unlistedByte : Byte := 0

/-- The key of logical register (b, a), one for each of the 512 names but that the four names with a = 0x7F share the
key of the bank-select register (R50, R54). -/
def regKey (b : Bank) (a : Addr) : Nat :=
  if a = 0x7F then 0x7F else 128 * b.toNat + a.toNat

/-- Keys of `d_reg`: four banks of addresses 0x00 to 0x7E (R36). -/
def isRegKey (k : Nat) : Bool := k < 512 && k % 128 != 127

/-- The byte stored under a key. -/
def Memory.read : Memory → Nat → Byte
  | [], _ => unlistedByte
  | (k, v) :: m, a => if k = a then v else Memory.read m a

/-- Drop the cells of a key. -/
def Memory.erase : Memory → Nat → Memory
  | [], _ => []
  | (k, u) :: m, a => if k = a then Memory.erase m a else (k, u) :: Memory.erase m a

/-- Put a cell in its place in the rising order of keys. -/
def Memory.insert : Memory → Nat → Byte → Memory
  | [], a, v => [(a, v)]
  | (k, u) :: m, a, v => if a < k then (a, v) :: (k, u) :: m else (k, u) :: Memory.insert m a v

/-- Store a byte under a key, keeping the canonical form: a byte that an unlisted key reads as is not listed. -/
def Memory.write (m : Memory) (a : Nat) (v : Byte) : Memory :=
  if v = unlistedByte then Memory.erase m a else Memory.insert (Memory.erase m a) a v

/-- The canonical form from a lower bound on the keys. -/
def Memory.wfFrom : Nat → Memory → Bool
  | _, [] => true
  | lo, (k, v) :: m => decide (lo ≤ k) && isRegKey k && v != unlistedByte && Memory.wfFrom (k + 1) m

/-- The canonical form. -/
def Memory.wf (m : Memory) : Bool := Memory.wfFrom 0 m

end Sys2Proof.Machine
end

