-- ==== Sys2Proof/Machine/Operands.lean ====
section
/-! DEFINITION. Operand assembly and result extraction (R100 to R103), the bank field (R35, R101), the selection of the
bank-select register (R7), and the host-side assemblies of bytes (R68, R69, R178). -/

namespace Sys2Proof.Machine

/-- `BANK_SEL_ADDR` (R7, R56). -/
def bankSelAddr : Addr := 0x7F

/-- `READ_BIT` (R7). -/
def readBit : Byte := 0x80

/-- `READ_FILL` (R7, R102). -/
def readFill : Byte := 0x00

/-- The address byte of a read frame: `0x80 | zext_8(a)` (R100). -/
def readAddrByte (a : Addr) : Byte := readBit ||| a.setWidth 8

/-- The address byte of a write frame: `zext_8(a)` (R100). -/
def writeAddrByte (a : Addr) : Byte := a.setWidth 8

/-- The direction bit of an address byte: 1 read, 0 write (R99). -/
def isReadFrame (x : Byte) : Bool := x.getLsbD 7

/-- The address in bits 6:0 of an address byte (R99). -/
def frameAddr (x : Byte) : Addr := x.setWidth 7

/-- `bank_code(b) = (zext_8(b) << BANK_SEL_SHIFT)[7:0]` (R101). -/
def bankCode (p : Params) (b : Bank) : Byte := b.setWidth 8 <<< p.bankSelShift.val

/-- The bank a device with the bank-select byte `d` applies: `(d_sel >> BANK_SEL_SHIFT)[1:0]` (R35). -/
def bankField (p : Params) (d : Byte) : Bank := (d >>> p.bankSelShift.val).setWidth 2

/-- Load a single write frame: `xb[0]`, `xb[1]` (R60). -/
def loadWrite (a : Addr) (v : Byte) (x : XBuf) : XBuf := { x with b0 := writeAddrByte a, b1 := v }

/-- Load a read frame: the address byte, then fill bytes; the single read leaves `xb[2..6]` alone (R59). -/
def loadRead (a : Addr) : FrameLen → XBuf → XBuf
  | .two, x => { x with b0 := readAddrByte a, b1 := readFill }
  | .seven, _ => ⟨readAddrByte a, readFill, readFill, readFill, readFill, readFill, readFill⟩

/-- `xb[0..xn-1] <- resp` (R61). -/
def takeResponse (resp : XBuf) : FrameLen → XBuf → XBuf
  | .two, x => { x with b0 := resp.b0, b1 := resp.b1 }
  | .seven, _ => resp

/-- One 16-bit two's-complement axis value from the byte at the lower address and the byte at the higher one (R69). -/
def axisValue (order : ByteOrder) (lower higher : Byte) : Int :=
  match order with
  | .big => (lower ++ higher : BitVec 16).toInt
  | .little => (higher ++ lower : BitVec 16).toInt

/-- `vec3(y, order)` (R69), on the six bytes `y[1..6]` of a block read. -/
def vec3 (order : ByteOrder) (y1 y2 y3 y4 y5 y6 : Byte) : Vec3 :=
  ⟨axisValue order y1 y2, axisValue order y3 y4, axisValue order y5 y6⟩

/-- The raw temperature word `{byte at 0x39, byte at 0x3A}`, high byte first (R68). -/
def rawTemp (h l : Byte) : BitVec 16 := h ++ l

/-- The raw temperature as a number; whether it is signed is open (R178; log 16). -/
def rawTempValue (signed : Bool) (raw : BitVec 16) : Int := if signed then raw.toInt else raw.toNat

/-- `(raw − 20.0)/333.87 + 21.0` (R178), exactly. The result of `get_temp` is this in 32-bit floating point (R179), which
is `temp32` of Float.lean. -/
def tempFormula (raw : Int) : Rat := (raw - 20) / (33387 / 100) + 21

end Sys2Proof.Machine
end

