-- ==== Sys2Proof/Machine/Ops.lean ====
section
/-! DEFINITION. The named operations over the state: field updates, the device, the four transport primitives (R12),
the transaction XACT (R61), the memory primitives MemRead and MemWrite (R59, R60), the bank-select step SEL (R140),
latching a command, the end of a command and the exceptions (R190 to R192), and RST (R220). -/

namespace Sys2Proof.Machine

/-! ### Field updates -/

def State.setPh (ph : Phase) (s : State) : State := { s with ph := ph }

def State.setPend (q : Pend) (s : State) : State := { s with pend := q }

def State.setFrame (x : XBuf) (n : FrameLen) (s : State) : State := { s with xb := x, xn := n }

def State.setXb (x : XBuf) (s : State) : State := { s with xb := x }

/-- `cur_bank <- b` (R14). -/
def State.setCurBank (b : Bank) (s : State) : State := { s with curBank := b }

def State.setCs (l : Level) (s : State) : State := { s with cs := l }

/-- One more token of the event trace (R16). -/
def State.log (e : Event) (s : State) : State := { s with trace := s.trace ++ [e] }

/-! ### The environment: whose answer, and the device -/

/-- The answer of the transport to the next invocation: the one fixed in advance if there is one; then the mock answers
ok (R64, R65) and the unconstrained transport anything (R34). Only an answer that is given is used up, by `spent`: an
invocation that has none meets the same silence again, after RST too (DESIGN CHOICE, log 27). -/
def State.answer (s : State) : Answer :=
  match s.script with
  | a :: _ => a
  | [] =>
    match s.transport with
    | .mock => .ok
    | .free => Config.freeAnswer s.tick

/-- `d_bank`, the bank the device applies to a frame (R35). -/
def State.dBank (s : State) : Bank := bankField s.params s.dSel

/-- The device's byte at address `a` of bank `b`: `d_sel` at 0x7F of every bank, `d_reg[b][a]` elsewhere (R35, R36). -/
def State.devByte (s : State) (b : Bank) (a : Addr) : Byte :=
  if a = bankSelAddr then s.dSel else Memory.read s.mem (regKey b a)

/-- Put a byte into register (b, a) of the device (R35, R36). -/
def State.devPut (b : Bank) (a : Addr) (v : Byte) (s : State) : State :=
  if a = bankSelAddr then { s with dSel := v } else { s with mem := Memory.write s.mem (regKey b a) v }

/-- Store a byte at address `a` of the device's current bank, as it stands before the frame (R64). -/
def State.devStore (a : Addr) (v : Byte) (s : State) : State := s.devPut s.dBank a v

/-- What a write frame `[x0, v]` that was answered ok stores: on the mock `v` (R64; a first byte with bit 7 set is no
write frame). What it does to the device behind the unconstrained transport is part of `devDrift`. -/
def State.devWriteOk (x0 v : Byte) (s : State) : State :=
  match s.transport with
  | .free => s
  | .mock => if isReadFrame x0 then s else s.devStore (frameAddr x0) v

/-- What else the device holds once an invocation has been answered. The mock is plain storage: it changes by a write
frame that succeeds and by nothing else (R34, R64, R65). Behind the unconstrained transport every register, the
bank-select register among them, may hold any byte: the frame may have been garbled, ignored, or have taken effect
though it failed (R75, R144, R204, R234), a read may have a side effect (R74, U22), and the device may have changed or
reset itself (R44, R78, R232; log 11). -/
def State.devDrift (s : State) : State :=
  match s.transport with
  | .mock => s
  | .free => (Config.freeDevice s.tick).foldl (fun t p => t.devPut p.bank p.addr p.byte) s

/-- One invocation has been answered: its answer is used up, and the device may have drifted. -/
def State.spent (s : State) : State :=
  let t := s.devDrift
  { t with script := t.script.tail, tick := t.tick + 1 }

/-- The frame in the buffer is a block read that would run past 0x7F, and the device is the mock, which gives such a
read no meaning (R65, R71). -/
def State.pastMock (s : State) : Bool :=
  s.transport == .mock && isReadFrame s.xb.b0 && s.xn == .seven && decide (0x7F < (frameAddr s.xb.b0).toNat + 5)

/-- The answer to `transfer`. To a block read past 0x7F the mock has no ok to give: what comes in its place is any
answer, so that nothing can be claimed of the case (R71, U19, D24; log 12). -/
def State.transferAnswer (s : State) : Answer :=
  match s.answer with
  | .ok => if s.pastMock then Config.freeAnswer s.tick else .ok
  | .fail e => .fail e
  | .silent => .silent

/-- The mock's answer to a read frame (R65): any byte, then the bytes at `a`, `a + 1`, ... of its current bank. Where a
read would run past 0x7F the mock gives no bytes (R71): any bytes (log 12). -/
def State.mockResponse (s : State) (a : Addr) : FrameLen → XBuf
  | .two => { Config.freeResponse s.tick with b0 := Config.freeEcho s.tick, b1 := s.devByte s.dBank a }
  | .seven =>
    if a.toNat + 5 ≤ 0x7F then
      ⟨Config.freeEcho s.tick, s.devByte s.dBank a, s.devByte s.dBank (a + 1), s.devByte s.dBank (a + 2),
        s.devByte s.dBank (a + 3), s.devByte s.dBank (a + 4), s.devByte s.dBank (a + 5)⟩
    else Config.freeResponse s.tick

/-- The bytes that answer a `transfer`: the mock's for a read frame (R65), any bytes from the unconstrained transport
(R34, R12) and for a frame with bit 7 clear, to which the mock gives no response. -/
def State.response (s : State) : XBuf :=
  match s.transport with
  | .free => Config.freeResponse s.tick
  | .mock =>
    if isReadFrame s.xb.b0 then s.mockResponse (frameAddr s.xb.b0) s.xn else Config.freeResponse s.tick

/-! ### The four primitives of the transport (R12)

Each is one invocation with its answer (R185). A transport that does not answer leaves the state as it is (R189). -/

/-- `cs_low()`. After a failure the level is unknown (R32). -/
def csLow (s : State) : Ran (Option PinErr) :=
  match s.answer with
  | .ok => .done none (((s.setCs .low).log .low).spent)
  | .fail e => .done (some ⟨e⟩) (((s.setCs (Config.freeLevel s.tick)).log (.lowErr ⟨e⟩)).spent)
  | .silent => .waiting s

/-- `cs_high()`. After a failure the level is unknown (R32). -/
def csHigh (s : State) : Ran (Option PinErr) :=
  match s.answer with
  | .ok => .done none (((s.setCs .high).log .high).spent)
  | .fail e => .done (some ⟨e⟩) (((s.setCs (Config.freeLevel s.tick)).log (.highErr ⟨e⟩)).spent)
  | .silent => .waiting s

/-- `write(xb[0..1])` (R60, R188). Nothing the device shifts back is captured. -/
def busWrite (s : State) : Ran (Option CommErr) :=
  match s.answer with
  | .ok => .done none (((s.devWriteOk s.xb.b0 s.xb.b1).log (.write [s.xb.b0, s.xb.b1])).spent)
  | .fail e =>
    .done (some ⟨e⟩) ((s.log (.writeErr [s.xb.b0, s.xb.b1] ⟨e⟩)).spent)
  | .silent => .waiting s

/-- `transfer(xb[0..xn-1])` (R59, R189): on ok the response overwrites the buffer; on a failure the buffer holds any
bytes (R61). A frame with bit 7 clear is a write frame to the mock (R65); the block never emits one. -/
def busTransfer (s : State) : Ran (Option CommErr) :=
  match s.transferAnswer with
  | .ok =>
    .done none ((((s.devWriteOk s.xb.b0 s.xb.b1).setXb (takeResponse s.response s.xn s.xb)).log
      (.transfer (s.xb.frame s.xn) (s.response.frame s.xn))).spent)
  | .fail e =>
    .done (some ⟨e⟩) (((s.setXb (Config.freeBuffer s.tick)).log (.transferErr (s.xb.frame s.xn) ⟨e⟩)).spent)
  | .silent => .waiting s

/-- Go on with the value returned, or stay waiting. -/
def Ran.bind {α β : Type} : Ran α → (α → State → Ran β) → Ran β
  | .done a s, f => f a s
  | .waiting s, _ => .waiting s

/-! ### Transactions -/

/-- Which of a command's two transactions: the bank-select or the access (R24). -/
inductive Leg where
  | sel
  | acc
  deriving DecidableEq, Repr

/-- `S_LOW` or `A_LOW`. -/
def Leg.low : Leg → Phase
  | .sel => .sLow
  | .acc => .aLow

/-- `S_DATA` or `A_DATA`. -/
def Leg.data : Leg → Phase
  | .sel => .sData
  | .acc => .aData

/-- `S_HIGH` or `A_HIGH`. -/
def Leg.high : Leg → Phase
  | .sel => .sHigh
  | .acc => .aHigh

/-- The failed-assertion path of XACT (R61): the deassertion is attempted if `RELEASE_ON_ASSERT_FAIL`, its answer
discarded. -/
def assertFailed (leg : Leg) (p1 : PinErr) (s : State) : Ran Result :=
  if s.params.releaseOnAssertFail then
    (csHigh ((s.setPend (.pin p1)).setPh leg.high)).bind fun _ t => .done (.pin p1) t
  else .done (.pin p1) s

/-- The data primitive of XACT (R61): `transfer` if `duplex`, else `write`. -/
def dataPhase (duplex : Bool) (s : State) : Ran (Option CommErr) := if duplex then busTransfer s else busWrite s

/-- The deassertion of XACT and the choice of its status (R61, R63). -/
def release (leg : Leg) (r2 : Option CommErr) (s : State) : Ran Result :=
  (csHigh ((s.setPend (pendOfData r2)).setPh leg.high)).bind fun r3 t =>
    .done (xactResult t.params.doubleFault (t.xb.data t.xn) r2 r3) t

/-- `XACT(duplex)` (R61) over the frame in `xb`, `xn`. The phase and the pending error are kept as R188 and R189 keep
them, so that a block whose transport does not answer is left where the sequencer would leave it (log 15). -/
def xact (leg : Leg) (duplex : Bool) (s : State) : Ran Result :=
  (csLow (s.setPh leg.low)).bind fun r1 t =>
    match r1 with
    | some p1 => assertFailed leg p1 t
    | none => (dataPhase duplex (t.setPh leg.data)).bind fun r2 u => release leg r2 u

/-- `MemRead(a, n)` with n = xn - 1 (R59). -/
def memRead (leg : Leg) (a : Addr) (n : FrameLen) (s : State) : Ran Result :=
  xact leg true (s.setFrame (loadRead a n s.xb) n)

/-- A write returns no data (R96: `len` is 0 for a write). -/
def Result.noData : Result → Result
  | .ok _ => .ok []
  | .comm c => .comm c
  | .pin p => .pin p

/-- `MemWrite(a, 1, v)` (R60). -/
def memWrite (leg : Leg) (a : Addr) (v : Byte) (s : State) : Ran Result :=
  (xact leg false (s.setFrame (loadWrite a v s.xb) .two)).bind fun r t => .done r.noData t

/-- A bank-select write whose status is OK is recorded (R22, R140); any other leaves `cur_bank` (R143). -/
def recordBank (b : Bank) (r : Result) (s : State) : Ran Result :=
  match r with
  | .ok _ => .done (.ok []) (s.setCurBank b)
  | .comm c => .done (.comm c) s
  | .pin p => .done (.pin p) s

/-- The select is skipped: `SKIP_REDUNDANT and cur_bank = b` (R141). -/
def State.skips (s : State) (b : Bank) : Bool := s.params.skipRedundant && s.curBank == b

/-- `SEL(b)` (R140). -/
def sel (b : Bank) (s : State) : Ran Result :=
  if s.skips b then .done (.ok []) s
  else (memWrite .sel bankSelAddr (bankCode s.params b) s).bind fun r t => recordBank b r t

/-- "bank-select-then-access": the access follows only if SEL(b) is OK (R53, R150). -/
def selThen (b : Bank) (access : State → Ran Result) (s : State) : Ran Result :=
  (sel b s).bind fun r t =>
    match r with
    | .ok _ => access t
    | .comm c => .done (.comm c) t
    | .pin p => .done (.pin p) t

/-! ### Accepting a command and ending it -/

/-- Latch the fields of an accepted command (R26); `pend` becomes NONE (R28). -/
def latch (i : Instr) (s : State) : State :=
  { s with
    cOp := i.fields.op, cBank := i.fields.bank, cAddr := i.fields.addr, cData := i.fields.data, pend := .none }

/-- The latches and the exchange buffer hold unspecified leftovers (R26, R27, R202; log 10). -/
def State.dropLatches (s : State) : State :=
  let l := Config.freeLeftovers s.drops
  { s with
    cOp := l.op, cBank := l.bank, cAddr := l.addr, cData := l.data, xb := l.xb, xn := l.xn, drops := s.drops + 1 }

/-- The host receives a response and stops at one that is not OK (R170), unless it is a host that goes on (R205). -/
def HostState.receive (r : Response) (h : HostState) : HostState :=
  if r.status = .ok ∨ h.goesOn then h else { h with stopped := true }

/-- Send a response on `RSP` (R96); the host receives it. -/
def State.send (r : Response) (s : State) : State := { s with rsps := s.rsps ++ [r], host := s.host.receive r }

/-- The end of a command: the response is sent, `ph` becomes IDLE (R186) and `pend` NONE (R28, R202). -/
def endCommand (r : Response) (s : State) : State :=
  (((s.send r).dropLatches).setPend .none).setPh .idle

/-- Taking an exception (R190 to R192, R202). COMM and PIN end the command in progress with no data and save nothing;
ILLEGAL answers the word and changes no register of the block. There is no return from it (R205): the block is in IDLE
and accepts the next command as after a success. -/
def raise (e : Exc) (s : State) : State :=
  match e with
  | .comm c => endCommand ⟨.comm c, []⟩ s
  | .pin p => endCommand ⟨.pin p, []⟩ s
  | .illegal => s.send ⟨.illegal, []⟩

/-- `return OK(bytes)` (R14, R96). -/
def returnOk (bytes : List Byte) (s : State) : State := endCommand ⟨.ok, bytes⟩ s

/-- End a command with what its last procedure returned. -/
def respond (r : Result) (s : State) : State :=
  match r with
  | .ok bytes => returnOk bytes s
  | .comm c => raise (.comm c) s
  | .pin p => raise (.pin p) s

/-- A command that has returned sends its response; one whose transport does not answer stays in its phase (R189). -/
def finish : Ran Result → State
  | .done r s => respond r s
  | .waiting s => s

/-- Run a command from its acceptance. -/
def runCommand (i : Instr) (body : State → Ran Result) (s : State) : State := finish (body (latch i s))

/-- Asserting `RST` (R220): `cur_bank` 0, `ph` IDLE, `pend` NONE, latches and buffer unspecified. Nothing is invoked on
the bus and the device keeps its registers (R221); a command in progress is abandoned with no response (R223). The
level is taken as a pulse: the step that resets deasserts it (log 14).
DESIGN CHOICE (log 26): the host is not touched. It has received no response to an abandoned command and its index
stays past that word; a host that had stopped stays stopped, although R226 lets it start again.
DESIGN CHOICE (log 27): an invocation that had no answer is not used up by RST; a transport that is silent stays so.
DESIGN CHOICE (log 28): the line is left at the level it has, and nothing presents it high before the next command, which
runs as any other, though R45 and R224 have the platform present it high. So in mid-command, where it may be low (R223),
and in IDLE after a failed `cs_high` or `cs_low`, where it is unknown (R32). -/
def assertRst (s : State) : State :=
  let t := s.dropLatches
  { t with curBank := 0, ph := .idle, pend := .none, rst := false }

end Sys2Proof.Machine
end

