-- ==== Sys2Proof/Machine/Banked.lean ====
section
/-! DEFINITION. The banked access commands RDB, WRB, RDVB, the register address multiplexer
(spec/42_banked_access.md). -/

namespace Sys2Proof.Machine

/-- `RDB b, a` (R151). -/
def execRdb (b : Bank) (a : Addr) (s : State) : Host.Outcome State Fault Refusal :=
  .next (runCommand (.rdb b a) (selThen b (memRead .acc a .two)) s)

/-- `WRB b, a, v` (R152). -/
def execWrb (b : Bank) (a : Addr) (v : Byte) (s : State) : Host.Outcome State Fault Refusal :=
  .next (runCommand (.wrb b a v) (selThen b (memWrite .acc a v)) s)

/-- `RDVB b, a` (R153). -/
def execRdvb (b : Bank) (a : Addr) (s : State) : Host.Outcome State Fault Refusal :=
  .next (runCommand (.rdvb b a) (selThen b (memRead .acc a .seven)) s)

end Sys2Proof.Machine
end

