-- ==== Sys2Proof/Machine/Raw.lean ====
section
/-! DEFINITION. The raw access commands RDR, WRR, RDV (spec/40_raw_access.md): one transaction, no bank handling. -/

namespace Sys2Proof.Machine

/-- `RDR a` (R120). -/
def execRdr (a : Addr) (s : State) : Host.Outcome State Fault Refusal :=
  .next (runCommand (.rdr a) (memRead .acc a .two) s)

/-- `WRR a, v` (R121). -/
def execWrr (a : Addr) (v : Byte) (s : State) : Host.Outcome State Fault Refusal :=
  .next (runCommand (.wrr a v) (memWrite .acc a v) s)

/-- `RDV a` (R122): it always performs its transaction (R123). -/
def execRdv (a : Addr) (s : State) : Host.Outcome State Fault Refusal :=
  .next (runCommand (.rdv a) (memRead .acc a .seven) s)

end Sys2Proof.Machine
end

