-- ==== Sys2Proof/Machine/Select.lean ====
section
/-! DEFINITION. The bank-select command SELB (spec/41_bank_select.md). -/

namespace Sys2Proof.Machine

/-- `SELB b` (R140). -/
def execSelb (b : Bank) (s : State) : Host.Outcome State Fault Refusal :=
  .next (runCommand (.selb b) (sel b) s)

end Sys2Proof.Machine
end

