-- ==== Sys2Proof/Machine/Dispatch.lean ====
section
/-! DEFINITION. One arm per command: the command rules R120 to R122, R140, R151 to R153. -/

namespace Sys2Proof.Machine

def exec (i : Instr) (s : State) : Host.Outcome State Fault Refusal :=
  match i with
  | .selb b => Sys2Proof.Machine.execSelb b s
  | .rdr a => Sys2Proof.Machine.execRdr a s
  | .wrr a v => Sys2Proof.Machine.execWrr a v s
  | .rdb b a => Sys2Proof.Machine.execRdb b a s
  | .wrb b a v => Sys2Proof.Machine.execWrb b a v s
  | .rdv a => Sys2Proof.Machine.execRdv a s
  | .rdvb b a => Sys2Proof.Machine.execRdvb b a s

end Sys2Proof.Machine
end

