-- ==== Sys2Proof/Machine/Fetch.lean ====
section
/-! DEFINITION. The `CMD` port: the word the host presents, and its acceptance (R25, R170). -/

namespace Sys2Proof.Machine

/-- The word the host presents on `CMD`: the next one of its program, unless it has stopped (R170). -/
def State.presented (s : State) : Option CmdWord :=
  if s.host.stopped then none else s.host.prog[s.host.next]?

/-- The block has accepted the word: the host's index moves on (R33). -/
def State.taken (s : State) : State := { s with host := { s.host with next := s.host.next + 1 } }

/-- The host presents `w` next: its program is that one word, and the block is idle, out of reset and ready for it. -/
def State.present (w : CmdWord) (s : State) : State :=
  { s with ph := .idle, rst := false, host := { s.host with prog := [w], next := 0, stopped := false } }

end Sys2Proof.Machine
end

