-- ==== Sys2Proof/Machine/Sequencer.lean ====
section
/-! DEFINITION. The sequencer (spec/44_sequencer.md): the same commands cut into one step per transport invocation
(R185), written from the transition table R187 to R189 and its helpers R186. -/

namespace Sys2Proof.Machine

/-- The opcode of a latched command (R91). -/
def opSELB : BitVec 3 := 1
def opRDR : BitVec 3 := 2
def opWRR : BitVec 3 := 3
def opRDB : BitVec 3 := 4
def opWRB : BitVec 3 := 5
def opRDV : BitVec 3 := 6
def opRDVB : BitVec 3 := 7

/-- `c_op` is `SELB`, `RDB`, `WRB` or `RDVB` (R186). -/
def opHasBank (op : BitVec 3) : Bool := op == opSELB || op == opRDB || op == opWRB || op == opRDVB

/-- `is_write`: `c_op` is `WRR` or `WRB` (R186). -/
def opIsWrite (op : BitVec 3) : Bool := op == opWRR || op == opWRB

/-- `c_op` is `RDR` or `RDB`. -/
def opIsRead (op : BitVec 3) : Bool := op == opRDR || op == opRDB

/-- `c_op` is `RDV` or `RDVB`. -/
def opIsBlockRead (op : BitVec 3) : Bool := op == opRDV || op == opRDVB

/-- `needs_select` (R186). -/
def State.needsSelect (s : State) : Bool := opHasBank s.cOp && !(s.params.skipRedundant && s.curBank == s.cBank)

/-- `load_select_frame` (R186). -/
def State.loadSelectFrame (s : State) : State :=
  s.setFrame (loadWrite bankSelAddr (bankCode s.params s.cBank) s.xb) .two

/-- `load_access_frame` (R186). For a `c_op` none of its clauses names, which no accepted command has, it loads
nothing. -/
def State.loadAccessFrame (s : State) : State :=
  if opIsWrite s.cOp then s.setFrame (loadWrite s.cAddr s.cData s.xb) .two
  else if opIsRead s.cOp then s.setFrame (loadRead s.cAddr .two s.xb) .two
  else if opIsBlockRead s.cOp then s.setFrame (loadRead s.cAddr .seven s.xb) .seven
  else s

/-- Rows T0 to T3 (R187): accepting a word in IDLE. -/
def accept (w : CmdWord) (s : State) : State :=
  match decode w with
  | .illegal _ => raise .illegal s
  | .cmd i =>
    let t := latch i s
    if t.needsSelect then t.loadSelectFrame.setPh .sLow
    else if t.cOp = opSELB then returnOk [] t
    else t.loadAccessFrame.setPh .aLow

/-- The actions of rows T4 and T7. -/
def afterLow (leg : Leg) (r1 : Option PinErr) (s : State) : State :=
  match r1 with
  | none => s.setPh leg.data
  | some p => if s.params.releaseOnAssertFail then (s.setPend (.pin p)).setPh leg.high else raise (.pin p) s

/-- Rows T4 and T7: `cs_low` of one transaction. -/
def seqLow (leg : Leg) (s : State) : State :=
  match csLow s with
  | .waiting t => t
  | .done r1 t => afterLow leg r1 t

/-- The actions of rows T5 and T8: a failure is kept in `pend`, a success leaves `pend`. -/
def afterData (leg : Leg) (r2 : Option CommErr) (s : State) : State :=
  match r2 with
  | none => s.setPh leg.high
  | some c => (s.setPend (.comm c)).setPh leg.high

/-- Rows T5 and T8: the data primitive. -/
def seqData (leg : Leg) (duplex : Bool) (s : State) : State :=
  match dataPhase duplex s with
  | .waiting t => t
  | .done r2 t => afterData leg r2 t

/-- Rows T6b and T6c: a bank-select that succeeded. -/
def seqSelected (s : State) : State :=
  let t := s.setCurBank s.cBank
  if t.cOp = opSELB then returnOk [] t else t.loadAccessFrame.setPh .aLow

/-- Rows T9b and T9c: an access that succeeded. -/
def seqAccessed (s : State) : State :=
  if opIsWrite s.cOp then returnOk [] s else returnOk (s.xb.data s.xn) s

/-- The actions of rows T6 and T9: the response if an error is pending, else what a success does. -/
def afterHigh (ok : State → State) (pend : Pend) (s : State) : State :=
  match pend with
  | .comm c => raise (.comm c) s
  | .pin p => raise (.pin p) s
  | .none => ok s

/-- Rows T6 and T9: `cs_high`, then `note_high` of its answer. -/
def seqHigh (ok : State → State) (s : State) : State :=
  match csHigh s with
  | .waiting t => t
  | .done r t => afterHigh ok (noteHigh t.params.doubleFault r t.pend) t

/-- One step of a command in progress (R188, R189). In IDLE there is none, and nothing changes. -/
def seqStep (s : State) : State :=
  match s.ph with
  | .idle => s
  | .sLow => seqLow .sel s
  | .sData => seqData .sel false s
  | .sHigh => seqHigh seqSelected s
  | .aLow => seqLow .acc s
  | .aData => seqData .acc (!opIsWrite s.cOp) s
  | .aHigh => seqHigh seqAccessed s

/-- `n` steps of the command in progress. -/
def seqSteps : Nat → State → State
  | 0, s => s
  | n + 1, s => seqSteps n (seqStep s)

end Sys2Proof.Machine
end

