-- ==== Sys2Proof/Machine/Step.lean ====
section
/-! DEFINITION. One step of the machine. -/

namespace Sys2Proof.Machine

/-- One step. `RST` asserted, in any phase: the reset (R220, R223; in mid-command logs 14, 27; the line it leaves log 28).
In IDLE with no word presented the block sits (R222). A word presented is accepted (R25): a step of grain `invocation` is
the acceptance alone (R185 (a), rows T0 to T3); a step of grain `command` runs the command to its end by its command rule,
which is the normative semantics (44_sequencer.md; log 15). Either way an illegal word is answered (R192, R201). In any
other phase: one invocation of the command in progress (R185 (b)). -/
def step (s : State) : Host.Outcome State Fault Refusal :=
  if s.rst then .next (assertRst s)
  else if s.ph = .idle then
    match s.presented with
    | none => .next s
    | some w =>
      match s.grain with
      | .invocation => .next (accept w s.taken)
      | .command =>
        match decode w with
        | .cmd i => exec i s.taken
        | .illegal _ => .next (raise .illegal s.taken)
  else .next (seqStep s)

/-- `s` with the instruction whose bits are `w` as the word the host presents next, and with steps of a whole command,
so that the very next step runs it (log 7, log 15). -/
def State.withFetchWord (s : State) (nbits w : Nat) : State :=
  { s.present (tableWord nbits w) with grain := .command }

end Sys2Proof.Machine
end

