-- ==== Sys2Proof/Machine/Float.lean ====
section
/-! DEFINITION. The 32-bit floating point of the temperature result (R178, R179): fractions, rounding to a binary format
of the IEEE 754 kind, and the temperature formula evaluated as the source leaves open. Host-side arithmetic; the block
does none of it. Only integer arithmetic is used, so that everything here can be evaluated. -/

namespace Sys2Proof.Machine

/-- A fraction. The denominator is positive wherever one is built here. -/
structure Frac where
  num : Int
  den : Nat
  deriving DecidableEq, Repr

/-- The number it stands for. -/
def Frac.value (q : Frac) : Rat := q.num / q.den

def Frac.add (p q : Frac) : Frac := ⟨p.num * q.den + q.num * p.den, p.den * q.den⟩
def Frac.sub (p q : Frac) : Frac := ⟨p.num * q.den - q.num * p.den, p.den * q.den⟩

/-- The quotient by a positive fraction. -/
def Frac.div (p q : Frac) : Frac := ⟨p.num * q.den, p.den * q.num.natAbs⟩

/-- The number ±mag * 2^exp. -/
structure Dyadic where
  neg : Bool
  mag : Nat
  exp : Int
  deriving DecidableEq, Repr

def Dyadic.frac (x : Dyadic) : Frac :=
  let m : Nat := x.mag * 2 ^ x.exp.toNat
  ⟨if x.neg then -(m : Int) else m, 2 ^ (-x.exp).toNat⟩

/-- A binary format: the bits of its significand and the exponent of its least normal number. -/
structure FloatFormat where
  prec : Nat
  emin : Int
  deriving DecidableEq, Repr

def binary32 : FloatFormat := ⟨24, -126⟩
def binary64 : FloatFormat := ⟨53, -1022⟩

/-- Whether a magnitude of `m` units and `r / b` of one more is rounded away from zero. -/
def roundsAway (mode : Rounding) (neg : Bool) (m r b : Nat) : Bool :=
  match mode with
  | .nearestEven => decide (b < 2 * r) || (decide (2 * r = b) && decide (m % 2 = 1))
  | .nearestAway => decide (b ≤ 2 * r)
  | .towardZero => false
  | .up => decide (r ≠ 0) && !neg
  | .down => decide (r ≠ 0) && neg

/-- The exponent `e` with 2^e ≤ n / d < 2^(e + 1), for positive `n` and `d`. -/
def ilog2 (n d : Nat) : Int :=
  let e : Int := (Nat.log2 n : Int) - (Nat.log2 d : Int)
  if d * 2 ^ e.toNat ≤ n * 2 ^ (-e).toNat then e else e - 1

/-- A fraction rounded to a format. The results here are far below the greatest number of either format, so that
overflow does not come into it. -/
def roundFrac (f : FloatFormat) (mode : Rounding) (q : Frac) : Dyadic :=
  let n := q.num.natAbs
  let neg := decide (q.num < 0)
  if n = 0 then ⟨false, 0, 0⟩
  else
    let k := max (ilog2 n q.den) f.emin - (f.prec - 1 : Nat)
    let a := n * 2 ^ (-k).toNat
    let b := q.den * 2 ^ k.toNat
    ⟨neg, if roundsAway mode neg (a / b) (a % b) b then a / b + 1 else a / b, k⟩

/-- A 32-bit floating-point value, by its bits: sign, eight bits of exponent, 23 of significand. -/
structure F32 where
  bits : BitVec 32
  deriving DecidableEq, Repr

/-- The bits of a number that `roundFrac binary32` has given. -/
def encodeF32 (x : Dyadic) : F32 :=
  let body : Nat := if x.mag = 0 then 0 else (x.exp + 149).toNat * 2 ^ 23 + x.mag
  ⟨BitVec.ofNat 32 ((if x.neg then 2 ^ 31 else 0) + body)⟩

/-- The number that finite bits stand for. -/
def F32.frac (x : F32) : Frac :=
  let e : Nat := x.bits.toNat / 2 ^ 23 % 256
  let m : Nat := x.bits.toNat % 2 ^ 23
  Dyadic.frac ⟨x.bits.getLsbD 31, if e = 0 then m else 2 ^ 23 + m, ((max e 1 : Nat) : Int) - 150⟩

/-- The formula `(raw − 20.0)/333.87 + 21.0` as written, each operation and each constant rounded to a format. -/
def tempSteps (f : FloatFormat) (mode : Rounding) (raw : Int) : Dyadic :=
  let op : Frac → Frac := fun q => (roundFrac f mode q).frac
  let d := op (Frac.sub ⟨raw, 1⟩ (op ⟨20, 1⟩))
  let q := op (Frac.div d (op ⟨33387, 100⟩))
  roundFrac f mode (Frac.add q (op ⟨21, 1⟩))

/-- The formula exactly, as a fraction. -/
def tempFrac (raw : Int) : Frac := Frac.add (Frac.div ⟨raw - 20, 1⟩ ⟨33387, 100⟩) ⟨21, 1⟩

/-- The temperature as a 32-bit floating-point value (R178, R179), for a rounding and a precision of the evaluation. -/
def temp32 (mode : Rounding) (eval : TempEval) (raw : Int) : F32 :=
  match eval with
  | .steps32 => encodeF32 (tempSteps binary32 mode raw)
  | .steps64 => encodeF32 (roundFrac binary32 mode (tempSteps binary64 mode raw).frac)
  | .exact => encodeF32 (roundFrac binary32 mode (tempFrac raw))

end Sys2Proof.Machine
end

