-- ==== Sys2Proof/Machine/RegisterMap.lean ====
section
/-! DEFINITION. The register map constants of the document (R9, R37 to R40), "bit-exact, must be preserved". The block
gives none of them but the bank-select register a special treatment (R42); the host's operations use them. -/

namespace Sys2Proof.Machine

/-- The device registers the document names (R37). -/
inductive NamedReg where
  | bankSelect
  | whoAmI
  | lowPowerConfig
  | powerManagement1
  /-- interrupt-enable, four registers -/
  | interruptEnable (k : Fin 4)
  /-- the first of six consecutive bytes -/
  | accelData
  /-- the first of six consecutive bytes -/
  | gyroData
  | temperatureHigh
  | temperatureLow
  | fifoEnable2
  deriving DecidableEq, Repr

/-- Their addresses (R37). -/
def NamedReg.addr : NamedReg → Addr
  | .bankSelect => bankSelAddr
  | .whoAmI => 0x00
  | .lowPowerConfig => 0x05
  | .powerManagement1 => 0x06
  | .interruptEnable k => 0x10 + BitVec.ofNat 7 k.val
  | .accelData => 0x2D
  | .gyroData => 0x33
  | .temperatureHigh => 0x39
  | .temperatureLow => 0x3A
  | .fifoEnable2 => 0x67

/-- What the document says of the bank of a register. The banks R37 marks as general knowledge are not in the source and
stand nowhere here. -/
inductive BankClass where
  /-- in every bank the same register -/
  | every
  /-- in this bank -/
  | given (b : Bank)
  /-- its meaning depends on the bank; which bank is not in the source -/
  | scoped
  /-- nothing is said -/
  | notGiven
  deriving DecidableEq, Repr

/-- The bank column of R37, with the classes of R58. -/
def NamedReg.bank : NamedReg → BankClass
  | .bankSelect => .every
  | .whoAmI => .given 0
  | .lowPowerConfig => .notGiven
  | .powerManagement1 => .scoped
  | .interruptEnable _ => .scoped
  | .accelData => .given 0
  | .gyroData => .given 0
  | .temperatureHigh => .given 0
  | .temperatureLow => .given 0
  | .fifoEnable2 => .scoped

/-- The expected identity (R9, R40). -/
def whoAmIValue : Byte := 0xEA

/-! The fields of power-management-1 (R38). Bits 5 to 1 are not described; the block passes any value through. -/

/-- The reset bit, bit 7. -/
def resetBitMask : Byte := 0x80

/-- Low-power enable, bit 6. -/
def lowPowerMask : Byte := 0x40

/-- Clock-auto-select, bit 0. -/
def clockAutoMask : Byte := 0x01

/-- The bits of power-management-1 the source does not describe (R38, U29). -/
def undescribedMask : Byte := 0x3E

/-- The bound of the reset poll (R9). -/
def pollBound : Nat := 10

end Sys2Proof.Machine
end

