-- ==== Sys2Proof/Machine/Facade.lean ====
section
/-! DEFINITION. The host's side, context only (spec/43_host_sequences.md): a host program run to its first response
that is not OK (R170), and the facade operations as sequences of commands with host arithmetic (R171 to R180). No part
of the block; `exec` and `step` do not call it. -/

namespace Sys2Proof.Machine

/-- The four error kinds of the facade (R177). -/
inductive FacadeError where
  | comm (c : CommErr)
  | pin (p : PinErr)
  /-- reset did not complete within the bounded retry window (R194) -/
  | unresponsive
  /-- who-am-i mismatch (R195) -/
  | invalidId
  deriving DecidableEq, Repr

/-- What an operation of the host returns: a value, an error, or nothing because the transport never answered and the
host waits for ever (R238). -/
inductive HostResult (α : Type) where
  | ok (a : α)
  | error (e : FacadeError)
  | waiting
  deriving DecidableEq, Repr

/-- Go on with the value; an error or an endless wait ends the sequence at once (R170). -/
def HostResult.andThen {α β : Type} (r : HostResult α × State) (f : α → State → HostResult β × State) :
    HostResult β × State :=
  match r.1 with
  | .ok a => f a r.2
  | .error e => (.error e, r.2)
  | .waiting => (.waiting, r.2)

/-- The state after a command; a command always has a next state. -/
def afterCommand (i : Instr) (s : State) : State :=
  match exec i s with
  | .next t => t
  | .fault _ => s
  | .refused _ => s

/-- What the host makes of a response (R177). ILLEGAL cannot answer a command of the typed syntax (R97); there is no
error kind for it and it is not given one. -/
def hostResult (r : Response) : HostResult (List Byte) :=
  match r.status with
  | .ok => .ok r.rdata
  | .comm c => .error (.comm c)
  | .pin p => .error (.pin p)
  | .illegal => .waiting

/-- Issue one command and wait for its response, the one after those already sent (R170). -/
def issue (i : Instr) (s : State) : HostResult (List Byte) × State :=
  let t := afterCommand i s
  match t.rsps[s.rsps.length]? with
  | some r => (hostResult r, t)
  | none => (.waiting, t)

/-- A host program: the commands in order, the data of each, up to the first status that is not OK (R170). -/
def runProgram : List Instr → State → HostResult (List (List Byte)) × State
  | [], s => (.ok [], s)
  | i :: is, s =>
    HostResult.andThen (issue i s) fun d t =>
      HostResult.andThen (runProgram is t) fun ds u => (.ok (d :: ds), u)

/-- The boot select (R225): `SELB 0`, or, where that would be skipped, the raw write of Bank0 to 0x7F. -/
def bootCommand (p : Params) : Instr := if p.skipRedundant then .wrr bankSelAddr 0x00 else .selb 0

/-- `NEW`: assert RST, then the boot select (R171, R225). -/
def facadeNew (s : State) : HostResult Unit × State :=
  HostResult.andThen (issue (bootCommand s.params) (assertRst s)) fun _ t => (.ok (), t)

/-- The byte of a single read. -/
def singleByte (d : List Byte) (s : State) : HostResult Byte × State :=
  match d with
  | [y] => (.ok y, s)
  | _ => (.waiting, s)

/-- `WHOAMI`: `SELB 0; RDR 0x00` (R172). -/
def facadeWhoAmI (s : State) : HostResult Byte × State :=
  HostResult.andThen (issue (.selb 0) s) fun _ t =>
    HostResult.andThen (issue (.rdr NamedReg.whoAmI.addr) t) singleByte

/-- The identity check (R173): any byte but 0xEA ends with `InvalidID`, without another command. -/
def identityCheck (s : State) : HostResult Unit × State :=
  HostResult.andThen (facadeWhoAmI s) fun y t => if y = whoAmIValue then (.ok (), t) else (.error .invalidId, t)

/-- The commands a configuration uses: `SELB`, `WRR` or `WRB`, and `RDR` (R176). -/
def setupUses : Instr → Bool
  | .selb _ => true
  | .rdr _ => true
  | .wrr _ _ => true
  | .rdb _ _ => false
  | .wrb _ _ _ => true
  | .rdv _ => false
  | .rdvb _ _ => false

/-- A write of a configuration: the bank it is meant for, the address and the value. -/
structure SetupWrite where
  bank : Bank
  addr : Addr
  value : Byte
  deriving DecidableEq, Repr

/-- The writes of a list of commands that is run with bank `b` selected. DESIGN CHOICE (log 17): the bank of a `WRR` is
the one that the commands before it last asked for. -/
def setupWrites : Bank → List Instr → List SetupWrite
  | _, [] => []
  | b, i :: is =>
    match i with
    | .selb b' => setupWrites b' is
    | .rdr _ => setupWrites b is
    | .wrr a v => ⟨b, a, v⟩ :: setupWrites b is
    | .rdb b' _ => setupWrites b' is
    | .wrb b' a v => ⟨b', a, v⟩ :: setupWrites b' is
    | .rdv _ => setupWrites b is
    | .rdvb b' _ => setupWrites b' is

/-- What the source does not give of the two kinds of registers that a configuration is known to write: their banks (R58,
N7) and which values disable interrupts (U29). Arguments of the model (log 17). -/
structure SetupOpen where
  fifoBank : Bank
  irqBank : Fin 4 → Bank
  off : Fin 4 → Byte → Bool

/-- The write is one of FIFO-enable-2. -/
def SetupOpen.writesFifo (o : SetupOpen) (w : SetupWrite) : Bool :=
  decide (w.bank = o.fifoBank) && decide (w.addr = NamedReg.fifoEnable2.addr)

/-- The write is one of the `k`-th interrupt-enable register. -/
def SetupOpen.writesIrq (o : SetupOpen) (k : Fin 4) (w : SetupWrite) : Bool :=
  decide (w.bank = o.irqBank k) && decide (w.addr = (NamedReg.interruptEnable k).addr)

/-- What is known of a configuration (R176): only these commands, a write of FIFO-enable-2, and writes of the four
interrupt-enable registers, these with values that disable interrupts. It runs after the identity check, that is with
Bank0 selected (R172). -/
def setupKnown (o : SetupOpen) (commands : List Instr) : Bool :=
  let writes := setupWrites 0 commands
  commands.all setupUses && writes.any o.writesFifo &&
    (List.finRange 4).all fun k => writes.any (o.writesIrq k) && writes.all fun w => !o.writesIrq k w || o.off k w.value

/-- The configuration of `SETUP` after the identity check. Its list of commands, the banks and the values are not in the
source (R176, U29, U32) and are arguments; what is known of them is checked (log 17). -/
structure SetupConfig where
  unknown : SetupOpen
  commands : List Instr
  known : setupKnown unknown commands = true

/-- `SETUP` (R176): the identity check, then the configuration. -/
def facadeSetup (config : SetupConfig) (s : State) : HostResult Unit × State :=
  HostResult.andThen (identityCheck s) fun _ t =>
    HostResult.andThen (runProgram config.commands t) fun _ u => (.ok (), u)

/-- The reset poll of `SOFTRESET` (R174): up to `n` more attempts, each counted in the host's attempt counter (R33).
The delay before each is host-side and touches nothing (R182). -/
def pollReset : Nat → State → HostResult Unit × State
  | 0, s => (.error .unresponsive, s)
  | n + 1, s =>
    let s1 := { s with host := { s.host with attempt := s.host.attempt + 1 } }
    HostResult.andThen (issue (.rdr NamedReg.powerManagement1.addr) s1) fun d t =>
      HostResult.andThen (singleByte d t) fun v u =>
        if v &&& resetBitMask = 0 then (.ok (), u) else pollReset n u

/-- `SOFTRESET` (R174): `SELB 0; WRR 0x06, 0x80`, then the poll. -/
def facadeSoftReset (s : State) : HostResult Unit × State :=
  HostResult.andThen (issue (.selb 0) s) fun _ t =>
    HostResult.andThen (issue (.wrr NamedReg.powerManagement1.addr resetBitMask) t) fun _ u =>
      pollReset pollBound { u with host := { u.host with attempt := 0 } }

/-- `GETTEMP` (R178): `SELB 0; RDR 0x39; RDR 0x3A`, then the formula in 32-bit floating point, in the open rounding and
precision (R179; log 16). -/
def facadeGetTemp (s : State) : HostResult F32 × State :=
  HostResult.andThen (issue (.selb 0) s) fun _ t =>
    HostResult.andThen (issue (.rdr NamedReg.temperatureHigh.addr) t) fun dh u =>
      HostResult.andThen (singleByte dh u) fun h u =>
        HostResult.andThen (issue (.rdr NamedReg.temperatureLow.addr) u) fun dl v =>
          HostResult.andThen (singleByte dl v) fun l v =>
            (.ok (temp32 Config.tempRounding Config.tempEval (rawTempValue Config.rawTempSigned (rawTemp h l))), v)

/-- A vector of Bank0 at `a`: one block read, then `vec3` in the open byte order (R180, R69). -/
def facadeVector (a : Addr) (s : State) : HostResult Vec3 × State :=
  HostResult.andThen (issue (.rdvb 0 a) s) fun d t =>
    match d with
    | [y1, y2, y3, y4, y5, y6] => (.ok (vec3 t.params.vecByteOrder y1 y2 y3 y4 y5 y6), t)
    | _ => (.waiting, t)

/-- `RDACCEL` (R180). -/
def facadeReadAccel (s : State) : HostResult Vec3 × State := facadeVector NamedReg.accelData.addr s

/-- `RDGYRO` (R180). -/
def facadeReadGyro (s : State) : HostResult Vec3 × State := facadeVector NamedReg.gyroData.addr s

end Sys2Proof.Machine
end

