-- ==== Sys2Proof/Safety.lean ====
section
/-! DEFINITION. What claims are stated in: the answers the transport is going to give, the frame shapes the block may
emit (R98), the coherence of the shadow (R43, R82), counts over event traces (R62), and the invariant of the
machine. -/

namespace Sys2Proof.Machine

/-- The answer the transport is going to give to the `k`-th invocation from now (R34). -/
def State.answerAt (s : State) (k : Nat) : Answer :=
  match s.script[k]? with
  | some a => a
  | none =>
    match s.transport with
    | .mock => .ok
    | .free => Config.freeAnswer (s.tick + k)

/-- The transport answers the next `n` invocations, with ok or with a failure (the premise of R189, R241). -/
def State.Answered (s : State) (n : Nat) : Prop := ∀ k < n, s.answerAt k ≠ .silent

/-- A block read that would run past 0x7F (R71). -/
def readsPastEnd : Instr → Bool
  | .selb _ => false
  | .rdr _ => false
  | .wrr _ _ => false
  | .rdb _ _ => false
  | .wrb _ _ _ => false
  | .rdv a => decide (0x7F < a.toNat + 5)
  | .rdvb _ a => decide (0x7F < a.toNat + 5)

/-- The environment gives the command a meaning: all of them on the unconstrained transport (R34); on the mock all but a
block read past 0x7F, to which it has no answer of its own (R65, R71). -/
def State.Served (s : State) (i : Instr) : Prop := s.transport = .mock → readsPastEnd i = false

/-- The status of a transaction whose invocations get the answers `k`, `k + 1`, `k + 2` from now, if all it needs are
given (R61, R63). -/
def State.xactStatus (s : State) (k : Nat) : Option Status :=
  match s.answerAt k, s.answerAt (k + 1), s.answerAt (k + 2) with
  | .fail p, _, _ => some (.pin ⟨p⟩)
  | .ok, .ok, .ok => some .ok
  | .ok, .fail c, .ok => some (.comm ⟨c⟩)
  | .ok, .ok, .fail p => some (.pin ⟨p⟩)
  | .ok, .fail c, .fail p =>
    match s.params.doubleFault with
    | .comm => some (.comm ⟨c⟩)
    | .pin => some (.pin ⟨p⟩)
  | _, _, _ => none

/-- In which of its three phases a transaction waits whose first invocation is the `k`-th from now, if it meets an
invocation that is never answered (R61, R188, R189). -/
def State.stall (s : State) (k : Nat) : Option (Leg → Phase) :=
  match s.answerAt k with
  | .silent => some Leg.low
  | .fail _ => if s.params.releaseOnAssertFail ∧ s.answerAt (k + 1) = .silent then some Leg.high else none
  | .ok =>
    match s.answerAt (k + 1) with
    | .silent => some Leg.data
    | .ok => if s.answerAt (k + 2) = .silent then some Leg.high else none
    | .fail _ => if s.answerAt (k + 2) = .silent then some Leg.high else none

/-- The transport answers ok to the next `n` invocations. -/
def State.AllOk (s : State) (n : Nat) : Prop := ∀ k < n, s.answerAt k = .ok

/-- The bank a command carries, if it carries one (R92). -/
def commandBank : Instr → Option Bank
  | .selb b => some b
  | .rdr _ => none
  | .wrr _ _ => none
  | .rdb b _ => some b
  | .wrb b _ _ => some b
  | .rdv _ => none
  | .rdvb b _ => some b

/-- The device selects the bank the shadow records: the shadow is not stale (R43, R228). -/
def State.Coherent (s : State) : Prop := s.dBank = s.curBank

/-- The bytes sent in a single or a block read frame: direction bit set, every other byte 0x00 (R98). -/
def Event.readSent : List Byte → Bool
  | [x, f1] => isReadFrame x && f1 == readFill
  | [x, f1, f2, f3, f4, f5, f6] => isReadFrame x && [f1, f2, f3, f4, f5, f6].all (· == readFill)
  | _ => false

/-- The three frame shapes of R98, and the bare chip-select tokens. -/
def Event.shapeOk : Event → Bool
  | .low => true
  | .lowErr _ => true
  | .high => true
  | .highErr _ => true
  | .write [x, _] => !isReadFrame x
  | .write _ => false
  | .writeErr [x, _] _ => !isReadFrame x
  | .writeErr _ _ => false
  | .transfer sent resp => Event.readSent sent && resp.length == sent.length
  | .transferErr sent _ => Event.readSent sent

/-- `cs_low` was invoked, with whatever answer (R16). -/
def Event.isLow : Event → Bool
  | .low => true
  | .lowErr _ => true
  | .high => false
  | .highErr _ => false
  | .write _ => false
  | .writeErr _ _ => false
  | .transfer _ _ => false
  | .transferErr _ _ => false

/-- `cs_high` was invoked, with whatever answer (R16). -/
def Event.isHigh : Event → Bool
  | .low => false
  | .lowErr _ => false
  | .high => true
  | .highErr _ => true
  | .write _ => false
  | .writeErr _ _ => false
  | .transfer _ _ => false
  | .transferErr _ _ => false

/-- How often chip-select was asserted in a trace, and how often deasserted. -/
def lowCount (es : List Event) : Nat := es.countP Event.isLow
def highCount (es : List Event) : Nat := es.countP Event.isHigh

/-- How often `transfer` was invoked in a trace. -/
def transferCount (es : List Event) : Nat :=
  es.countP fun e =>
    match e with
    | .low => false
    | .lowErr _ => false
    | .high => false
    | .highErr _ => false
    | .write _ => false
    | .writeErr _ _ => false
    | .transfer _ _ => true
    | .transferErr _ _ => true

/-- How often `write` was invoked in a trace. -/
def writeCount (es : List Event) : Nat :=
  es.countP fun e =>
    match e with
    | .low => false
    | .lowErr _ => false
    | .high => false
    | .highErr _ => false
    | .write _ => true
    | .writeErr _ _ => true
    | .transfer _ _ => false
    | .transferErr _ _ => false

/-- The frame of a command's access: the bytes sent between its assertion and its deassertion (R98). -/
def accessFrame : Instr → List Byte
  | .selb _ => []
  | .rdr a => [readAddrByte a, 0x00]
  | .wrr a v => [writeAddrByte a, v]
  | .rdb _ a => [readAddrByte a, 0x00]
  | .wrb _ a v => [writeAddrByte a, v]
  | .rdv a => [readAddrByte a, 0, 0, 0, 0, 0, 0]
  | .rdvb _ a => [readAddrByte a, 0, 0, 0, 0, 0, 0]

/-- The token of a command's access whose data primitive is answered ok: its frame by `write` or by `transfer`, the
latter with a response as long as the frame (R59, R60). -/
def accessDone (i : Instr) (e : Event) : Prop :=
  if opIsWrite i.fields.op then e = .write (accessFrame i)
  else ∃ resp, resp.length = (accessFrame i).length ∧ e = .transfer (accessFrame i) resp

/-- The token of a command's access whose data primitive fails with `c`. -/
def accessFailed (i : Instr) (c : CommErr) : Event :=
  if opIsWrite i.fields.op then .writeErr (accessFrame i) c else .transferErr (accessFrame i) c

/-- `n` steps of the machine. -/
def stepN : Nat → State → Host.Outcome State Fault Refusal
  | 0, s => .next s
  | n + 1, s =>
    match step s with
    | .next t => stepN n t
    | .fault f => .fault f
    | .refused r => .refused r

/-- The tokens of one successful bank-select transaction: `L W[7F bank_code(b)] H` (R140). -/
def selectTokens (p : Params) (b : Bank) : List Event := [.low, .write [0x7F, bankCode p b], .high]

/-- What every command keeps, whatever the transport answers: the parameters, the environment's kind, the step
granularity, the `RST` port, and of the host all but whether it has stopped. -/
structure Keeps (s t : State) : Prop where
  params : t.params = s.params
  transport : t.transport = s.transport
  grain : t.grain = s.grain
  rst : t.rst = s.rst
  prog : t.host.prog = s.host.prog
  next : t.host.next = s.host.next
  goesOn : t.host.goesOn = s.host.goesOn
  attempt : t.host.attempt = s.host.attempt

/-- A command has ended with the response `r`: exactly that response was sent and received (R96), `ph` is IDLE and
`pend` is NONE (R202, R186), and the rest is kept. -/
structure Ended (s t : State) (r : Response) : Prop where
  rsps : t.rsps = s.rsps ++ [r]
  stopped : t.host.stopped = (s.host.receive r).stopped
  ph : t.ph = .idle
  pend : t.pend = .none
  keeps : Keeps s t

/-- Every byte of the device reads as before. -/
def SameDevice (s t : State) : Prop := ∀ (b : Bank) (a : Addr), t.devByte b a = s.devByte b a

/-- Every byte of the device reads as before but the one at address `a` of bank `d`. -/
def SameDeviceBut (d : Bank) (a : Addr) (s t : State) : Prop :=
  ∀ (b' : Bank) (a' : Addr), regKey b' a' ≠ regKey d a → t.devByte b' a' = s.devByte b' a'

/-- The data length of a command's OK response (R96). -/
def okLen : Instr → Nat
  | .selb _ => 0
  | .rdr _ => 1
  | .wrr _ _ => 0
  | .rdb _ _ => 1
  | .wrb _ _ _ => 0
  | .rdv _ => 6
  | .rdvb _ _ => 6

/-- The command sends no response and waits in this phase for ever (R189, R238). -/
def WaitsIn (i : Instr) (s : State) (p : Phase) : Prop :=
  ∃ t : State, exec i s = .next t ∧ t.ph = p ∧ t.rsps = s.rsps ∧ s.trace <+: t.trace ∧
    (s.rst = false → step t = .next t)

/-- `s` with other leftovers in the working registers and another pending error. -/
def State.withJunk (l : Leftovers) (q : Pend) (s : State) : State :=
  { s with cOp := l.op, cBank := l.bank, cAddr := l.addr, cData := l.data, xb := l.xb, xn := l.xn, pend := q }

/-- Two states agree in all but the working registers, their counter, and the responses sent and the host: what the
host sees of the block, the bus and the device between commands. -/
structure SameMachine (s t : State) : Prop where
  params : t.params = s.params
  curBank : t.curBank = s.curBank
  ph : t.ph = s.ph
  pend : t.pend = s.pend
  rst : t.rst = s.rst
  trace : t.trace = s.trace
  cs : t.cs = s.cs
  transport : t.transport = s.transport
  script : t.script = s.script
  grain : t.grain = s.grain
  tick : t.tick = s.tick
  dSel : t.dSel = s.dSel
  mem : t.mem = s.mem

/-- What a latched command asks of the access frame in `xb`, `xn` (R98, R186). -/
def State.accessFrameLoaded (s : State) : Prop :=
  (opIsWrite s.cOp ∧ s.xn = .two ∧ s.xb.b0 = writeAddrByte s.cAddr ∧ s.xb.b1 = s.cData) ∨
  (opIsRead s.cOp ∧ s.xn = .two ∧ s.xb.b0 = readAddrByte s.cAddr ∧ s.xb.b1 = readFill) ∨
  (opIsBlockRead s.cOp ∧ s.xn = .seven ∧
    s.xb = ⟨readAddrByte s.cAddr, readFill, readFill, readFill, readFill, readFill, readFill⟩)

/-- The invariant every step keeps. -/
structure Inv (s : State) : Prop where
  /-- the device's register file is in canonical form -/
  memWf : Memory.wf s.mem = true
  /-- `pend` never survives the end of a command (R28), and is set only at or after the data primitive (R188, R189) -/
  pendEarly : s.ph = .idle ∨ s.ph = .sLow ∨ s.ph = .sData ∨ s.ph = .aLow ∨ s.ph = .aData → s.pend = .none
  /-- in the bank-select transaction the command carries a bank and the frame is the bank-select frame (R186, R188) -/
  selectFrame : s.ph = .sLow ∨ s.ph = .sData ∨ s.ph = .sHigh →
    opHasBank s.cOp ∧ s.xn = .two ∧ s.xb.b0 = writeAddrByte bankSelAddr ∧ s.xb.b1 = bankCode s.params s.cBank
  /-- before the data primitive of the access transaction the frame is the command's access frame (R186, R189) -/
  accessFrame : s.ph = .aLow ∨ s.ph = .aData → s.accessFrameLoaded
  /-- in the access transaction the command has an access -/
  accessOp : s.ph = .aHigh → s.cOp ≠ 0 ∧ s.cOp ≠ opSELB
  /-- every frame on the bus has one of the three shapes (R98, R108) -/
  shapes : ∀ e ∈ s.trace, e.shapeOk = true

end Sys2Proof.Machine
end

