-- ==== Sys2Proof/Certificates/Slice0/Obligations.lean ====
section
/-! DEFINITION. The statements for the provers. Each formalises numbered rules of spec/ or is derived from them;
OBLIGATIONS.json says which. `AllOk n`: the transport answers ok to the next n invocations; `Answered n`: it answers
them, with ok or with a failure; `Served i`: not a block read past 0x7F on the mock, which gives it no meaning. A
statement about a free value holds whatever that value is. -/

open Sys2Proof Sys2Proof.Machine

/-! ### Encoding -/

/-- R104: "exact inverses on legal words": decoding the word of a command gives the command, and a word that decodes to
a command is the word of that command; every command is well-formed. -/
def Obligations.DecodeEncodeAreInverses : Prop :=
  (∀ i : Instr, i.wellFormed = true ∧ decode (encode i) = .cmd i) ∧
  (∀ (w : CmdWord) (i : Instr), decode w = .cmd i → encode i = w)

/-- R105, R106: a word decodes to a command of a mnemonic exactly when it matches the row of that mnemonic; no word
matches two rows; a word that matches none is illegal, and that is when one of the conditions of R106 holds of its
fields. -/
def Obligations.DecoderFollowsOpcodeMap : Prop :=
  (∀ (w : CmdWord) (r : OpcodeRow), r ∈ opcodeRows →
    (r.hits w = true ↔ ∃ i : Instr, decode w = .cmd i ∧ i.mnemonic = r.mnemonic)) ∧
  (∀ (w : CmdWord) (r r' : OpcodeRow), r ∈ opcodeRows → r' ∈ opcodeRows → r.hits w = true → r'.hits w = true → r = r') ∧
  (∀ w : CmdWord, (∃ why, decode w = .illegal why) ↔ ∀ r ∈ opcodeRows, r.hits w = false) ∧
  (∀ w : CmdWord, (∃ why, decode w = .illegal why) ↔
    ((unpackFields w).op = 0 ∨ (unpackFields w).z1 ≠ 0 ∨ (unpackFields w).z0 ≠ 0 ∨ (unpackFields w).unusedZero = false))

/-- R106: 165124 of the 2^24 command words are legal. -/
def Obligations.LegalWordsNumber165124 : Prop :=
  Nat.card { w : CmdWord // ∃ i : Instr, decode w = .cmd i } = 165124

/-- Words written out from the tables of R105 and of spec/95_test_vectors.md (VDEC), one for each command and some
illegal ones. MODEL'S CHOICE (log 22): which reason an illegal word carries is the first the model finds, in the order
z1, z0, op, unused fields; so `0x1FFFFF` carries z1NotZero, where VDEC names `op` = 0. The response is the same. -/
def Obligations.SampleWordsDecode : Prop :=
  decode 0x220000 = .cmd (.selb 2) ∧ decode 0x407F00 = .cmd (.rdr 0x7F) ∧ decode 0x600680 = .cmd (.wrr 0x06 0x80) ∧
  decode 0x831000 = .cmd (.rdb 3 0x10) ∧ decode 0xA2000A = .cmd (.wrb 2 0x00 0x0A) ∧
  decode 0xC02D00 = .cmd (.rdv 0x2D) ∧ decode 0xE03300 = .cmd (.rdvb 0 0x33) ∧
  decode 0x1FFFFF = .illegal .z1NotZero ∧ decode 0x000000 = .illegal .reservedOp ∧
  decode 0x408000 = .illegal .z0NotZero ∧ decode 0x410000 = .illegal .unusedBank ∧
  decode 0x200100 = .illegal .unusedAddr ∧ decode 0xE00001 = .illegal .unusedData

/-- R100: for every address the address byte of a read frame is `0x80 | zext_8(a)`, that is `{1, a[6:0]}`, and that of a
write frame `zext_8(a)`, that is `{0, a[6:0]}`; both are loaded as byte 0 of their frames, and nothing of the address is
lost (R99). -/
def Obligations.AddressByteCarriesDirectionAndAddress : Prop :=
  (∀ a : Addr,
    readAddrByte a = (0x80 : Byte) ||| a.setWidth 8 ∧ (readAddrByte a).toNat = 128 + a.toNat ∧
    writeAddrByte a = a.setWidth 8 ∧ (writeAddrByte a).toNat = a.toNat ∧
    isReadFrame (readAddrByte a) = true ∧ isReadFrame (writeAddrByte a) = false ∧
    frameAddr (readAddrByte a) = a ∧ frameAddr (writeAddrByte a) = a) ∧
  ∀ (a : Addr) (v : Byte) (n : FrameLen) (x : XBuf),
    (loadRead a n x).b0 = readAddrByte a ∧ (loadWrite a v x).b0 = writeAddrByte a

/-- R101: for every shift from 0 to 6 the bank code is the bank number, widened to 8 bits and shifted, which is the
number times 2^shift with no bit lost; the four codes are distinct and the device recovers the bank from them (R35). With
shift 0 they are 0 to 3, with shift 4 they are 0x00, 0x10, 0x20, 0x30. -/
def Obligations.BankCodeIsRecoverable : Prop :=
  (∀ (p : Params) (b : Bank),
    bankCode p b = b.setWidth 8 <<< p.bankSelShift.val ∧
    (bankCode p b).toNat = b.toNat * 2 ^ p.bankSelShift.val ∧ bankField p (bankCode p b) = b ∧
    ∀ b' : Bank, bankCode p b = bankCode p b' → b = b') ∧
  (∀ p : Params, p.bankSelShift = 0 →
    bankCode p 0 = 0x00 ∧ bankCode p 1 = 0x01 ∧ bankCode p 2 = 0x02 ∧ bankCode p 3 = 0x03) ∧
  (∀ p : Params, p.bankSelShift = 4 →
    bankCode p 0 = 0x00 ∧ bankCode p 1 = 0x10 ∧ bankCode p 2 = 0x20 ∧ bankCode p 3 = 0x30)

/-- R24, R97: the encodings of the phases (7 is never taken) and of the statuses. -/
def Obligations.PhaseAndStatusCodes : Prop :=
  Phase.idle.code = 0 ∧ Phase.sLow.code = 1 ∧ Phase.sData.code = 2 ∧ Phase.sHigh.code = 3 ∧ Phase.aLow.code = 4 ∧
  Phase.aData.code = 5 ∧ Phase.aHigh.code = 6 ∧ (∀ q : Phase, q.code ≠ 7) ∧
  Status.ok.code = 0 ∧ (∀ c, (Status.comm c).code = 1) ∧ (∀ p, (Status.pin p).code = 2) ∧ Status.illegal.code = 3

/-! ### Reset and the step -/

/-- R45, R220, R8: what reset leaves, for the pieces of state whose value the spec gives. The other fields are the
model's choice and are not spoken of here. -/
def Obligations.ResetLeavesSpecValues : Prop :=
  State.reset.curBank = 0 ∧ State.reset.ph = .idle ∧ State.reset.pend = .none ∧ State.reset.cs = .high ∧
  State.reset.params.bankSelShift = 0 ∧ State.reset.params.skipRedundant = false ∧
  State.reset.params.releaseOnAssertFail = true ∧ State.reset.params.doubleFault = .comm

/-- R220, R221, R223: with RST asserted, in any phase, the step sets `cur_bank` to 0, `ph` to IDLE and `pend` to NONE;
no response is sent, nothing is invoked on the bus, chip-select is not driven, and the device keeps every byte. MODEL'S
CHOICE: the step is offered in mid-command (log 14); in every phase the line keeps the level it has, high or not, which the
platform would present high (R45, R224; log 28); the host is as before, its index past an abandoned word and stopped if it
had stopped (log 26); the transport's answers still to come are as before, a silence among them (log 27). -/
def Obligations.RstResetsTheBlockAndNothingElse : Prop :=
  ∀ s : State, s.rst = true → ∃ t : State, step s = .next t ∧
    t.curBank = 0 ∧ t.ph = .idle ∧ t.pend = .none ∧ t.rsps = s.rsps ∧ t.trace = s.trace ∧ t.cs = s.cs ∧
    SameDevice s t ∧ t.params = s.params ∧ t.host = s.host ∧ t.transport = s.transport ∧ t.script = s.script

/-- R222: out of reset and with no command presented the block sits in IDLE. MODEL'S CHOICE: that the step leaves the whole
state as it is, for a host that has stopped (R170) too, is log 21 (DEDUCED); that the device is the same after it is log
19 (DESIGN CHOICE, unsafe). -/
def Obligations.IdleBlockWaitsForCommand : Prop :=
  ∀ s : State, s.rst = false → s.ph = .idle → s.presented = none → step s = .next s

/-- R25, R112, R170: in IDLE, when the word the host presents, which is the host program's word at its index, decodes to
`i`, the word is accepted in the state in which the host's index has moved past it. MODEL'S CHOICE (log 15): how much one
step then does. A step of grain `command` is `exec i`, the whole command by its command rule; a step of grain
`invocation` is the acceptance alone, as R185 (a) has it. -/
def Obligations.StepRunsThePresentedCommand : Prop :=
  ∀ (s : State) (w : CmdWord) (i : Instr),
    s.rst = false → s.ph = .idle → s.host.stopped = false → s.host.prog[s.host.next]? = some w → decode w = .cmd i →
    (s.grain = .command → step s = exec i { s with host := { s.host with next := s.host.next + 1 } }) ∧
    (s.grain = .invocation → step s = .next (accept w { s with host := { s.host with next := s.host.next + 1 } }))

/-- R185: in any other phase the step is one step of the command in progress, and no word is accepted. -/
def Obligations.StepContinuesTheCommandInProgress : Prop :=
  ∀ s : State, s.rst = false → s.ph ≠ .idle → step s = .next (seqStep s) ∧ (seqStep s).host.next = s.host.next

/-- R192, R201: an illegal word is answered with status ILLEGAL, no payload and no data; no transport primitive is
invoked and no register of the block changes. The host's index has moved past the word, so that the word is not presented
again (R33), and the host has received the response: it has stopped (R170), unless it is one that goes on (R205). -/
def Obligations.IllegalWordIsAnsweredWithoutEffect : Prop :=
  ∀ (s : State) (w : CmdWord) (why : IllegalReason),
    s.rst = false → s.ph = .idle → s.host.stopped = false → s.host.prog[s.host.next]? = some w →
    decode w = .illegal why →
    step s = .next { s with
      rsps := s.rsps ++ [⟨.illegal, []⟩]
      host := { s.host.receive ⟨.illegal, []⟩ with next := s.host.next + 1 } } ∧
    Status.illegal.code = 3 ∧ Status.illegal.payload = none ∧
    (s.host.receive ⟨.illegal, []⟩).stopped = !s.host.goesOn

/-- R185 to R189: with steps of grain `invocation` the machine itself goes through the command in at most seven steps, one
acceptance and one step for each invocation, to exactly the state the command rule gives, ended or waiting. -/
def Obligations.StepsReachTheCommandRule : Prop :=
  ∀ (s : State) (w : CmdWord) (i : Instr),
    s.rst = false → s.ph = .idle → s.grain = .invocation → s.host.stopped = false →
    s.host.prog[s.host.next]? = some w → decode w = .cmd i →
    ∃ (n : Nat) (t : State), 1 ≤ n ∧ n ≤ 7 ∧ stepN n s = .next t ∧
      exec i { s with host := { s.host with next := s.host.next + 1 } } = .next t

/-! ### The invariant -/

/-- The state after reset meets the invariant. -/
def Obligations.ResetMeetsTheInvariant : Prop := Inv State.reset

/-- Every step, from every state that meets the invariant, leads to a state that meets it. -/
def Obligations.StepKeepsTheInvariant : Prop := ∀ s t : State, Inv s → step s = .next t → Inv t

/-- R8, R141: the parameters are fixed for the life of the block; no step changes them, nor which environment there
is. The step granularity (the model's own, log 15) stays too. -/
def Obligations.StepKeepsTheParameters : Prop :=
  ∀ s t : State, step s = .next t → t.params = s.params ∧ t.transport = s.transport ∧
    t.host.goesOn = s.host.goesOn ∧ t.grain = s.grain

/-! ### The commands when nothing fails -/

/-- R120, R59: `RDR a` emits one single read frame and returns the byte at index 1 of the response. On the mock that is
the device's byte at `a` in its current bank, and the device is as before (R65). `cur_bank` is as before. -/
def Obligations.RdrReturnsTheSecondResponseByte : Prop :=
  ∀ (a : Addr) (s : State), s.AllOk 3 → ∃ (t : State) (u y : Byte), exec (.rdr a) s = .next t ∧
    Ended s t ⟨.ok, [y]⟩ ∧ t.trace = s.trace ++ [.low, .transfer [readAddrByte a, 0x00] [u, y], .high] ∧
    (s.transport = .mock → y = s.devByte s.dBank a ∧ SameDevice s t) ∧
    t.curBank = s.curBank ∧ t.cs = .high ∧ t.script = s.script.drop 3

/-- R121, R60: `WRR a, v` emits one write frame and returns no data. On the mock the device's byte at `a` in its current
bank becomes `v`, and every other byte is as before (R64). `cur_bank` is as before, at a = 0x7F too (R229). -/
def Obligations.WrrWritesOneByte : Prop :=
  ∀ (a : Addr) (v : Byte) (s : State), s.AllOk 3 → ∃ t : State, exec (.wrr a v) s = .next t ∧
    Ended s t ⟨.ok, []⟩ ∧ t.trace = s.trace ++ [.low, .write [writeAddrByte a, v], .high] ∧
    (s.transport = .mock → t.devByte s.dBank a = v ∧ SameDeviceBut s.dBank a s t) ∧
    t.curBank = s.curBank ∧ t.cs = .high ∧ t.script = s.script.drop 3

/-- R122, R123: `RDV a` emits one block read frame of seven bytes and returns the six bytes at indices 1 to 6 of the
response: on the unconstrained transport for every `a`, on the mock for a + 5 at most 0x7F (R71), where they are the
device's bytes at a to a + 5 in its current bank and the device is as before (R65). `cur_bank` is as before. Of a block
read past 0x7F on the mock, BlockReadIsNotChecked says what the block does. -/
def Obligations.RdvReturnsSixConsecutiveBytes : Prop :=
  ∀ (a : Addr) (s : State), s.Served (.rdv a) → s.AllOk 3 →
    ∃ (t : State) (u y1 y2 y3 y4 y5 y6 : Byte), exec (.rdv a) s = .next t ∧
    Ended s t ⟨.ok, [y1, y2, y3, y4, y5, y6]⟩ ∧
    t.trace = s.trace ++
      [.low, .transfer [readAddrByte a, 0, 0, 0, 0, 0, 0] [u, y1, y2, y3, y4, y5, y6], .high] ∧
    (s.transport = .mock → SameDevice s t ∧
      y1 = s.devByte s.dBank a ∧ y2 = s.devByte s.dBank (a + 1) ∧ y3 = s.devByte s.dBank (a + 2) ∧
      y4 = s.devByte s.dBank (a + 3) ∧ y5 = s.devByte s.dBank (a + 4) ∧ y6 = s.devByte s.dBank (a + 5)) ∧
    t.curBank = s.curBank ∧ t.cs = .high ∧ t.script = s.script.drop 3

/-- R71, R42: the block does not check the address of a block read. For every `a`, on the mock past 0x7F too, `RDV a` whose
assertion is answered ok, and `RDVB b, a` whose select succeeded and whose access is asserted, have the seven-byte frame
sent or attempted by the time they end. -/
def Obligations.BlockReadIsNotChecked : Prop :=
  (∀ (a : Addr) (s : State), s.answerAt 0 = .ok → ∃ t : State, exec (.rdv a) s = .next t ∧
    (t.ph = .idle → ∃ (e : Event) (es : List Event), t.trace = s.trace ++ .low :: e :: es ∧
      (accessDone (.rdv a) e ∨ ∃ c, e = accessFailed (.rdv a) c))) ∧
  (∀ (b : Bank) (a : Addr) (s : State), s.skips b = false → s.AllOk 4 → ∃ t : State, exec (.rdvb b a) s = .next t ∧
    (t.ph = .idle → ∃ (e : Event) (es : List Event), t.trace = s.trace ++ selectTokens s.params b ++ .low :: e :: es ∧
      (accessDone (.rdvb b a) e ∨ ∃ c, e = accessFailed (.rdvb b a) c)))

/-- R140, R145: `SELB b` that is not skipped emits the bank-select frame, also when `cur_bank` is `b` already, and
records `b`. On a device that honours writes, the mock, `d_sel` becomes `bank_code(b)`, so shadow and device agree
whatever they were before, and no other byte of the device changes (R64). -/
def Obligations.SelbWritesAndRecordsTheBank : Prop :=
  ∀ (b : Bank) (s : State), s.skips b = false → s.AllOk 3 → ∃ t : State, exec (.selb b) s = .next t ∧
    Ended s t ⟨.ok, []⟩ ∧ t.trace = s.trace ++ selectTokens s.params b ∧ t.curBank = b ∧
    (s.transport = .mock → t.dSel = bankCode s.params b ∧ t.dBank = b ∧ t.Coherent ∧ SameDeviceBut 0 0x7F s t) ∧
    t.cs = .high ∧ t.script = s.script.drop 3

/-- R141, R231: `SELB b` that is skipped does nothing on the bus, changes neither `cur_bank` nor the device (a stale
device stays stale), and returns OK. -/
def Obligations.SkippedSelbDoesNothing : Prop :=
  ∀ (b : Bank) (s : State), s.skips b = true → ∃ t : State, exec (.selb b) s = .next t ∧
    Ended s t ⟨.ok, []⟩ ∧ t.trace = s.trace ∧ t.curBank = s.curBank ∧ t.dSel = s.dSel ∧ t.mem = s.mem ∧
    t.cs = s.cs ∧ t.script = s.script

/-- R142, R140, R22: the initial state is Bank0; and the transition table of the bank FSM for all sixteen pairs of
`cur_bank` and requested bank, on every command that makes a request SEL(b). Skipped: SEL(b) returns OK with nothing on
the bus and no change. A write whose status is OK: the frame `[0x7F, bank_code(b)]` is sent, `b` is recorded and SEL(b)
returns OK. A write whose status is COMM(c): the frame was attempted; PIN(p): an assertion or deassertion failed; either
way `cur_bank` stays and the command ends with that status. Of `SELB`, whose whole effect is SEL(b), the response is
SEL(b)'s. Nothing else changes `cur_bank`: no raw access, and every step out of reset that changes it is the recording of
a bank-select that was answered ok, as one step of the sequencer (its `cs_high` is answered ok and no error is pending) or
within the command's one step. -/
def Obligations.BankFsmTransitions : Prop :=
  State.reset.curBank = 0 ∧
  (∀ (i : Instr) (b : Bank) (s : State), commandBank i = some b → s.params.skipRedundant = true → s.curBank = b →
    sel b (latch i s) = .done (.ok []) (latch i s) ∧
    ∃ t : State, exec i s = .next t ∧ t.curBank = s.curBank ∧
      (i = .selb b → Ended s t ⟨.ok, []⟩ ∧ t.trace = s.trace)) ∧
  (∀ (i : Instr) (b : Bank) (s : State), commandBank i = some b → ¬(s.params.skipRedundant = true ∧ s.curBank = b) →
    s.AllOk 3 →
    (∃ u : State, sel b (latch i s) = .done (.ok []) u ∧ u.curBank = b ∧
      u.trace = s.trace ++ [.low, .write [0x7F, bankCode s.params b], .high]) ∧
    ∃ t : State, exec i s = .next t ∧ t.curBank = b ∧
      s.trace ++ [.low, .write [0x7F, bankCode s.params b], .high] <+: t.trace ∧
      (i = .selb b → Ended s t ⟨.ok, []⟩ ∧ t.trace = s.trace ++ [.low, .write [0x7F, bankCode s.params b], .high])) ∧
  (∀ (i : Instr) (b : Bank) (s : State), commandBank i = some b → ¬(s.params.skipRedundant = true ∧ s.curBank = b) →
    s.Answered 3 → ¬ s.AllOk 3 →
    ∃ (t : State) (r : Response) (es : List Event), exec i s = .next t ∧ Ended s t r ∧
      t.curBank = s.curBank ∧ t.trace = s.trace ++ es ∧
      ((∃ c, r = ⟨.comm c, []⟩ ∧ Event.writeErr [0x7F, bankCode s.params b] c ∈ es) ∨
       (∃ p, r = ⟨.pin p, []⟩ ∧ (Event.lowErr p ∈ es ∨ Event.highErr p ∈ es)))) ∧
  (∀ (i : Instr) (s t : State), commandBank i = none → exec i s = .next t → t.curBank = s.curBank) ∧
  (∀ s t : State, s.rst = false → step s = .next t → t.curBank ≠ s.curBank →
    (s.ph = .sHigh ∧ s.pend = .none ∧ s.answerAt 0 = .ok ∧ t.curBank = s.cBank ∧ t.trace = s.trace ++ [.high]) ∨
    (s.ph = .idle ∧ ∃ (w : CmdWord) (i : Instr), s.presented = some w ∧ decode w = .cmd i ∧
      commandBank i = some t.curBank ∧ s.AllOk 3 ∧ s.trace ++ selectTokens s.params t.curBank <+: t.trace))

/-- R151, R150: `RDB b, a` that is not skipped sends the bank-select frame, then the single read frame, and returns the
byte at index 1 of its response. On the mock that is `d_reg[b][a]`, or `bank_code(b)` at a = 0x7F, whatever the device
and the shadow were before (R157), and no byte of the device but 0x7F changes. -/
def Obligations.RdbSelectsThenReads : Prop :=
  ∀ (b : Bank) (a : Addr) (s : State), s.skips b = false → s.AllOk 6 →
    ∃ (t : State) (u y : Byte), exec (.rdb b a) s = .next t ∧ Ended s t ⟨.ok, [y]⟩ ∧
      t.trace = s.trace ++ selectTokens s.params b ++ [.low, .transfer [readAddrByte a, 0x00] [u, y], .high] ∧
      (s.transport = .mock → y = (if a = 0x7F then bankCode s.params b else s.devByte b a) ∧
        t.dSel = bankCode s.params b ∧ SameDeviceBut 0 0x7F s t) ∧
      t.curBank = b ∧ t.cs = .high ∧ t.script = s.script.drop 6

/-- R152, R150: `WRB b, a, v` that is not skipped sends the bank-select frame, then the write frame, and returns no
data; on the mock the byte at (b, a) becomes `v`, and no other byte changes but `d_sel`, which is `bank_code(b)`
(R157), or `v` at a = 0x7F while `cur_bank` is `b` (R229). -/
def Obligations.WrbSelectsThenWrites : Prop :=
  ∀ (b : Bank) (a : Addr) (v : Byte) (s : State), s.skips b = false → s.AllOk 6 →
    ∃ t : State, exec (.wrb b a v) s = .next t ∧ Ended s t ⟨.ok, []⟩ ∧
      t.trace = s.trace ++ selectTokens s.params b ++ [.low, .write [writeAddrByte a, v], .high] ∧
      (s.transport = .mock → t.devByte b a = v ∧ (a ≠ 0x7F → t.dSel = bankCode s.params b) ∧
        ∀ (b' : Bank) (a' : Addr), a' ≠ 0x7F → regKey b' a' ≠ regKey b a → t.devByte b' a' = s.devByte b' a') ∧
      t.curBank = b ∧ t.cs = .high ∧ t.script = s.script.drop 6

/-- R153, R150: `RDVB b, a` that is not skipped sends the bank-select frame, then one block read frame, and returns the
six bytes of its response: on the unconstrained transport for every `a`, on the mock for a + 5 at most 0x7F (R71). There
they are `d_reg[b][a]` to `d_reg[b][a + 5]` (R157), but the sixth is the bank-select register, `bank_code(b)`, at
a = 0x7A (R65, R71), and no byte of the device but 0x7F changes. -/
def Obligations.RdvbSelectsThenReadsSix : Prop :=
  ∀ (b : Bank) (a : Addr) (s : State), s.skips b = false → s.Served (.rdvb b a) → s.AllOk 6 →
    ∃ (t : State) (u y1 y2 y3 y4 y5 y6 : Byte), exec (.rdvb b a) s = .next t ∧
      Ended s t ⟨.ok, [y1, y2, y3, y4, y5, y6]⟩ ∧
      t.trace = s.trace ++ selectTokens s.params b ++
        [.low, .transfer [readAddrByte a, 0, 0, 0, 0, 0, 0] [u, y1, y2, y3, y4, y5, y6], .high] ∧
      (s.transport = .mock → t.dSel = bankCode s.params b ∧ SameDeviceBut 0 0x7F s t ∧
        y1 = s.devByte b a ∧ y2 = s.devByte b (a + 1) ∧ y3 = s.devByte b (a + 2) ∧
        y4 = s.devByte b (a + 3) ∧ y5 = s.devByte b (a + 4) ∧
        y6 = (if a = 0x7A then bankCode s.params b else s.devByte b (a + 5))) ∧
      t.curBank = b ∧ t.cs = .high ∧ t.script = s.script.drop 6

/-- R155: a banked command whose select is skipped performs the access only, and its trace is that of the raw command
with the same operands; the response too, and `cur_bank` stays `b`. -/
def Obligations.SkippedBankedCommandIsTheRawOne : Prop :=
  ∀ (b : Bank) (a : Addr) (v : Byte) (s : State), s.skips b = true →
    ∀ p ∈ [(Instr.rdb b a, Instr.rdr a), (Instr.wrb b a v, Instr.wrr a v), (Instr.rdvb b a, Instr.rdv a)],
      ∃ t t' : State, exec p.1 s = .next t ∧ exec p.2 s = .next t' ∧ t.trace = t'.trace ∧ t.rsps = t'.rsps ∧
        t.ph = t'.ph ∧ t.curBank = b ∧ t'.curBank = b ∧ t.dSel = t'.dSel ∧ t.mem = t'.mem ∧ t.cs = t'.cs

/-! ### The commands when something fails -/

/-- R61, R63, R199: which failure a raw command reports, and the tokens of R61. A failed assertion gives PIN with its
payload, whatever the deassertion answers, and no data primitive; a failed data primitive alone gives COMM; a failed
deassertion alone gives PIN; both together give what DOUBLE_FAULT_STATUS says. The data token is the command's own frame,
by `write` or by `transfer` (R59, R60), with the payload of its failure. No data is returned. -/
def Obligations.RawCommandReportsTheFailingCall : Prop :=
  ∀ (i : Instr) (s : State), commandBank i = none →
    (∀ e, s.answerAt 0 = .fail e → s.params.releaseOnAssertFail = true → s.answerAt 1 ≠ .silent →
      ∃ (t : State) (h : Event), exec i s = .next t ∧ Ended s t ⟨.pin ⟨e⟩, []⟩ ∧
        t.trace = s.trace ++ [.lowErr ⟨e⟩, h] ∧
        ((s.answerAt 1 = .ok ∧ h = .high) ∨ ∃ p, s.answerAt 1 = .fail p ∧ h = .highErr ⟨p⟩)) ∧
    (∀ e, s.answerAt 0 = .fail e → s.params.releaseOnAssertFail = false →
      ∃ t : State, exec i s = .next t ∧ Ended s t ⟨.pin ⟨e⟩, []⟩ ∧ t.trace = s.trace ++ [.lowErr ⟨e⟩]) ∧
    (∀ c, s.answerAt 0 = .ok → s.answerAt 1 = .fail c → s.answerAt 2 = .ok →
      ∃ t : State, exec i s = .next t ∧ Ended s t ⟨.comm ⟨c⟩, []⟩ ∧
        t.trace = s.trace ++ [.low, accessFailed i ⟨c⟩, .high]) ∧
    (∀ p, s.Served i → s.answerAt 0 = .ok → s.answerAt 1 = .ok → s.answerAt 2 = .fail p →
      ∃ (t : State) (d : Event), exec i s = .next t ∧ Ended s t ⟨.pin ⟨p⟩, []⟩ ∧ accessDone i d ∧
        t.trace = s.trace ++ [.low, d, .highErr ⟨p⟩]) ∧
    (∀ c p, s.answerAt 0 = .ok → s.answerAt 1 = .fail c → s.answerAt 2 = .fail p →
      ∃ t : State, exec i s = .next t ∧
        Ended s t ⟨(match s.params.doubleFault with | .comm => .comm ⟨c⟩ | .pin => .pin ⟨p⟩), []⟩ ∧
        t.trace = s.trace ++ [.low, accessFailed i ⟨c⟩, .highErr ⟨p⟩])

/-- R143, R150, R200, R63: when the bank-select write of a command fails, the command ends with the status of that
transaction, COMM or PIN with the payload of the invocation R63 names, and no data; `cur_bank` keeps its value, and no
access is attempted: one assertion, no `transfer`, and no frame but the bank-select frame. -/
def Obligations.FailedSelectEndsTheCommand : Prop :=
  ∀ (i : Instr) (b : Bank) (s : State), commandBank i = some b → s.skips b = false → s.Answered 3 → ¬ s.AllOk 3 →
    ∃ (t : State) (st : Status) (es : List Event), exec i s = .next t ∧ s.xactStatus 0 = some st ∧ st ≠ .ok ∧
      Ended s t ⟨st, []⟩ ∧ t.curBank = s.curBank ∧ t.trace = s.trace ++ es ∧ lowCount es = 1 ∧
      (∀ e ∈ es, e.isLow = true ∨ e.isHigh = true ∨ e = .write [0x7F, bankCode s.params b] ∨
        ∃ c, e = .writeErr [0x7F, bankCode s.params b] c)

/-- R154, R202, R63, R191: when the select of a banked command succeeds and its access fails, the command reports the
access's failure, COMM or PIN with the payload of the invocation R63 names, with no data, and the effects of the select
stay: `cur_bank` is the new bank, the select's tokens are on the bus, and on the mock `d_sel` is the bank code unless the
access wrote to 0x7F. -/
def Obligations.FailedAccessKeepsTheSelect : Prop :=
  ∀ (i : Instr) (b : Bank) (s : State), commandBank i = some b → i ≠ .selb b → s.skips b = false → s.Served i →
    s.AllOk 3 → s.Answered 6 → ¬ s.AllOk 6 →
    ∃ (t : State) (st : Status) (es : List Event), exec i s = .next t ∧ s.xactStatus 3 = some st ∧ st ≠ .ok ∧
      Ended s t ⟨st, []⟩ ∧ t.curBank = b ∧
      t.trace = s.trace ++ selectTokens s.params b ++ es ∧ lowCount es = 1 ∧
      (s.transport = .mock → (∀ v, i ≠ .wrb b 0x7F v) → t.dSel = bankCode s.params b)

/-- R75 (the mock's choice), R64, R143: on the mock a write that fails leaves every byte of the device, while one whose
deassertion alone fails has written. So for the write of `WRR`, and of a `WRB` whose select is skipped; for the
bank-select write of every command that carries a bank, where the failed deassertion leaves the device in bank `b` and
`cur_bank` at its old value; and for the access write of a `WRB` whose select succeeded, where both are `b`. A transaction
whose assertion fails writes nothing. -/
def Obligations.MockWriteFailureLeavesTheDevice : Prop :=
  (∀ (i : Instr) (a : Addr) (v : Byte) (s : State), s.transport = .mock →
    (i = .wrr a v ∨ ∃ b, i = .wrb b a v ∧ s.skips b = true) → s.answerAt 0 = .ok →
    (∀ c, s.answerAt 1 = .fail c → ∃ t : State, exec i s = .next t ∧ SameDevice s t) ∧
    (∀ p, s.answerAt 1 = .ok → s.answerAt 2 = .fail p →
      ∃ t : State, exec i s = .next t ∧ t.devByte s.dBank a = v ∧ SameDeviceBut s.dBank a s t)) ∧
  (∀ (i : Instr) (b : Bank) (s : State), s.transport = .mock → commandBank i = some b → s.skips b = false →
    s.answerAt 0 = .ok →
    (∀ c, s.answerAt 1 = .fail c → ∃ t : State, exec i s = .next t ∧ SameDevice s t ∧ t.curBank = s.curBank) ∧
    (∀ p, s.answerAt 1 = .ok → s.answerAt 2 = .fail p →
      ∃ t : State, exec i s = .next t ∧ t.dSel = bankCode s.params b ∧ t.curBank = s.curBank ∧
        SameDeviceBut 0 0x7F s t)) ∧
  (∀ (b : Bank) (a : Addr) (v : Byte) (s : State), s.transport = .mock → s.skips b = false → s.AllOk 3 →
    (∀ c, s.answerAt 3 = .fail c ∨ (s.answerAt 3 = .ok ∧ s.answerAt 4 = .fail c) →
      ∃ t : State, exec (.wrb b a v) s = .next t ∧ t.dSel = bankCode s.params b ∧ t.curBank = b ∧
        SameDeviceBut 0 0x7F s t) ∧
    (∀ p, s.answerAt 3 = .ok → s.answerAt 4 = .ok → s.answerAt 5 = .fail p →
      ∃ t : State, exec (.wrb b a v) s = .next t ∧ t.devByte b a = v ∧ t.curBank = b ∧
        (a ≠ 0x7F → t.dSel = bankCode s.params b) ∧
        ∀ (b' : Bank) (a' : Addr), a' ≠ 0x7F → regKey b' a' ≠ regKey b a → t.devByte b' a' = s.devByte b' a')) ∧
  (∀ (i : Instr) (s t : State) (e : Nat), s.transport = .mock → s.answerAt 0 = .fail e → exec i s = .next t →
    SameDevice s t)

/-- R189, R238: a command that meets an invocation that is never answered sends no response and stays in the phase of
that invocation, in the bank-select transaction or in the access transaction, whichever of the three invocations it is.
MODEL'S CHOICE (log 23): the unanswered invocation leaves the line, the trace and the device as they were, so that every
further step leaves the whole state as it is. -/
def Obligations.UnansweredCommandWaitsForEver : Prop :=
  (∀ (i : Instr) (s : State) (f : Leg → Phase), commandBank i = none → s.Served i → s.stall 0 = some f →
    WaitsIn i s (f .acc)) ∧
  (∀ (i : Instr) (b : Bank) (s : State) (f : Leg → Phase), commandBank i = some b → s.skips b = false →
    s.stall 0 = some f → WaitsIn i s (f .sel)) ∧
  (∀ (i : Instr) (b : Bank) (s : State) (f : Leg → Phase), commandBank i = some b → i ≠ .selb b → s.skips b = false →
    s.Served i → s.AllOk 3 → s.stall 3 = some f → WaitsIn i s (f .acc)) ∧
  (∀ (i : Instr) (b : Bank) (s : State) (f : Leg → Phase), commandBank i = some b → i ≠ .selb b → s.skips b = true →
    s.Served i → s.stall 0 = some f → WaitsIn i s (f .acc)) ∧
  (∀ (i : Instr) (s : State), commandBank i = none → s.answerAt 0 = .silent →
    ∃ t : State, exec i s = .next t ∧ t.trace = s.trace)

/-! ### Frames and whole-machine rules, whatever the transport answers -/

/-- Every command, whatever the transport answers, keeps the parameters, the kind of environment, the RST port, and the
host's program and index; it only adds to the trace and to the responses. -/
def Obligations.CommandsKeepTheRest : Prop :=
  ∀ (i : Instr) (s t : State), exec i s = .next t → Keeps s t ∧ s.trace <+: t.trace ∧ s.rsps <+: t.rsps

/-- R22, R142: a command changes `cur_bank` only to the bank it carries, and only after a bank-select transaction of
that bank all of whose invocations were answered ok. -/
def Obligations.CurBankChangesOnlyBySuccessfulSelect : Prop :=
  ∀ (i : Instr) (s t : State), exec i s = .next t → t.curBank ≠ s.curBank →
    commandBank i = some t.curBank ∧ s.AllOk 3 ∧ s.trace ++ selectTokens s.params t.curBank <+: t.trace

/-- R65, R57: a raw read leaves every byte of the mock, whatever answers are given. Behind the unconstrained transport a
read may have side effects (R74, U22; log 11), and nothing is said. -/
def Obligations.RawReadsLeaveTheDevice : Prop :=
  ∀ (i : Instr) (a : Addr) (s t : State), s.transport = .mock → (i = .rdr a ∨ i = .rdv a) → exec i s = .next t →
    SameDevice s t

/-- R52, R54, R64: the frame of the commands that store, on the mock, whatever answers are given: `WRR a, v` stores at `a`
of the device's current bank and nowhere else; `SELB`, `RDB` and `RDVB` store at 0x7F only. -/
def Obligations.StoresTouchOnlyTheirTarget : Prop :=
  (∀ (a : Addr) (v : Byte) (s t : State), s.transport = .mock → exec (.wrr a v) s = .next t →
    SameDeviceBut s.dBank a s t) ∧
  (∀ (i : Instr) (b : Bank) (a : Addr) (s t : State), s.transport = .mock →
    (i = .selb b ∨ i = .rdb b a ∨ i = .rdvb b a) → exec i s = .next t → SameDeviceBut 0 0x7F s t)

/-- R64, R150, R152: the frame of `WRB b, a, v` on the mock, whatever answers are given: besides 0x7F it stores only at `a`
of the bank the device is in when its select step has returned OK, and nowhere if it has not. -/
def Obligations.WrbTouchesOnlyItsTargets : Prop :=
  ∀ (b : Bank) (a : Addr) (v : Byte) (s t : State), s.transport = .mock → exec (.wrb b a v) s = .next t →
    ∀ (b' : Bank) (a' : Addr), a' ≠ 0x7F →
      (∀ (d : List Byte) (u : State), sel b (latch (.wrb b a v) s) = .done (.ok d) u → regKey b' a' ≠ regKey u.dBank a) →
      t.devByte b' a' = s.devByte b' a'

/-- R34, R43, R21: behind the unconstrained transport no command looks at the device: started with any other contents of
the device, the bank-select register included, it ends or waits in the same state but for the device. -/
def Obligations.UnconstrainedTransportHidesTheDevice : Prop :=
  ∀ (i : Instr) (d : Byte) (m : Memory) (s t : State), s.transport = .free → exec i s = .next t →
    ∃ t' : State, exec i { s with dSel := d, mem := m } = .next t' ∧ t' = { t with dSel := t'.dSel, mem := t'.mem }

/-- R96: a command that ends sends exactly one response; it is not ILLEGAL; with status OK its length is 0, 1 or 6 as
the command says; with any other status there is no data at all. A command that has not ended has sent none. -/
def Obligations.OneResponsePerCommand : Prop :=
  ∀ (i : Instr) (s t : State), exec i s = .next t →
    (t.ph = .idle ∧ ∃ r : Response, t.rsps = s.rsps ++ [r] ∧ r.status ≠ .illegal ∧
      (r.status = .ok → r.len = okLen i) ∧ (r.status ≠ .ok → r.rdata = [])) ∨
    (t.ph ≠ .idle ∧ t.rsps = s.rsps)

/-- R98, R108: whatever the transport answers, every frame a command puts on the bus is a two-byte write frame with the
direction bit clear, a two-byte read frame or a seven-byte read frame with the direction bit set and 0x00 fill. -/
def Obligations.FramesHaveOneOfThreeShapes : Prop :=
  ∀ (i : Instr) (s t : State), exec i s = .next t → ∃ es : List Event, t.trace = s.trace ++ es ∧
    ∀ e ∈ es, e.shapeOk = true

/-- R62, R124, R203: in a command that has ended, chip-select was deasserted as often as asserted if
RELEASE_ON_ASSERT_FAIL, whatever failed, and without that parameter as often as an assertion succeeded; a raw command
asserted it exactly once, and deasserts it exactly once but on the failed-assertion path without that parameter. -/
def Obligations.ChipSelectIsReleasedOnEveryPath : Prop :=
  ∀ (i : Instr) (s t : State), exec i s = .next t → t.ph = .idle → ∃ es : List Event, t.trace = s.trace ++ es ∧
    (s.params.releaseOnAssertFail = true → highCount es = lowCount es) ∧
    (s.params.releaseOnAssertFail = false → highCount es = es.count .low) ∧
    (commandBank i = none → lowCount es = 1 ∧
      (s.params.releaseOnAssertFail = true ∨ s.answerAt 0 = .ok → highCount es = 1))

/-- R144, R140: `SELB` never reads: whatever the transport answers, no `transfer` is invoked. -/
def Obligations.SelbNeverReads : Prop :=
  ∀ (b : Bank) (s t : State), exec (.selb b) s = .next t → ∃ es : List Event, t.trace = s.trace ++ es ∧
    transferCount es = 0

/-- R124: a raw command neither reads nor writes `cur_bank`, and does not look at SKIP_REDUNDANT: started with another
shadow and another policy it does exactly the same. -/
def Obligations.RawCommandsIgnoreShadowAndPolicy : Prop :=
  ∀ (i : Instr) (b : Bank) (k : Bool) (s t : State), commandBank i = none → exec i s = .next t →
    exec i { s with curBank := b, params := { s.params with skipRedundant := k } } =
      .next { t with curBank := b, params := { t.params with skipRedundant := k } }

/-- R26, R27: no command reads what the latches, the buffer or the pending error held before it: a command that ends
ends in the same state whatever they held. MODEL'S CHOICE (logs 8, 10): that the leftovers it ends with are the same too,
since both runs draw the same free value; R27 leaves them open. -/
def Obligations.LeftoversAreNeverRead : Prop :=
  ∀ (i : Instr) (l : Leftovers) (q : Pend) (s t : State), exec i s = .next t → t.ph = .idle →
    exec i (s.withJunk l q) = .next t

/-! ### The sequencer -/

/-- R185 to R189 against the command rules: for every word that decodes to a command, from every state and for every
behaviour of the transport, accepting the word and taking six steps of the sequencer leads exactly where the command
rule leads, or waits exactly where it waits. -/
def Obligations.SequencerRefinesTheCommandRules : Prop :=
  ∀ (w : CmdWord) (i : Instr) (s : State), decode w = .cmd i → exec i s = .next (seqSteps 6 (accept w s))

/-- R189: every command reaches IDLE again after at most seven steps, one acceptance and six more, if the transport
answers each invocation; its response has then been sent. -/
def Obligations.EveryCommandEndsInSevenSteps : Prop :=
  ∀ (w : CmdWord) (i : Instr) (s : State), decode w = .cmd i → s.Served i → s.Answered 6 →
    ∃ r : Response, Ended s (seqSteps 6 (accept w s)) r

/-! ### Properties of the mock (R34) -/

/-- R125: on the mock, with no failure, `WRR a, v` followed by `RDR a` returns `v`, for every `a`. -/
def Obligations.WriteThenReadReturnsTheValue : Prop :=
  ∀ (a : Addr) (v : Byte) (s : State), s.transport = .mock → s.AllOk 6 →
    ∃ t u : State, exec (.wrr a v) s = .next t ∧ exec (.rdr a) t = .next u ∧
      u.rsps = s.rsps ++ [⟨.ok, []⟩, ⟨.ok, [v]⟩]

/-- R146: on the mock `SELB b; SELB 0; RDR 0x00` returns `d_reg[0][0x00]`, whatever the device and the shadow were
before; with SKIP_REDUNDANT, provided they agreed or `b` is not 0. -/
def Obligations.SelectThenWhoAmIReadsBankZero : Prop :=
  ∀ (b : Bank) (s : State), s.transport = .mock → s.AllOk 9 →
    (s.params.skipRedundant = false ∨ s.Coherent ∨ b ≠ 0) →
    ∃ t u v : State, exec (.selb b) s = .next t ∧ exec (.selb 0) t = .next u ∧ exec (.rdr 0x00) u = .next v ∧
      v.rsps = s.rsps ++ [⟨.ok, []⟩, ⟨.ok, []⟩, ⟨.ok, [s.devByte 0 0x00]⟩]

/-- R157, the map is right on the mock: whatever `d_sel` and `cur_bank` were, under always-write, `RDB`, `WRB` and `RDVB`
reach exactly the bytes of bank `b`; with SKIP_REDUNDANT the same bytes are reached if shadow and device agreed. Either
way shadow and device agree on `b` afterwards if the access is no write to 0x7F. -/
def Obligations.BankedAccessReachesItsBank : Prop :=
  ∀ (b : Bank) (a : Addr) (v : Byte) (s : State), s.transport = .mock → s.AllOk 6 → a ≠ 0x7F →
    (s.params.skipRedundant = false ∨ s.Coherent) →
    (∃ t : State, exec (.rdb b a) s = .next t ∧ t.rsps = s.rsps ++ [⟨.ok, [s.devByte b a]⟩] ∧
      t.curBank = b ∧ t.dBank = b ∧ t.mem = s.mem ∧
      (s.params.skipRedundant = false → t.dSel = bankCode s.params b)) ∧
    (∃ t : State, exec (.wrb b a v) s = .next t ∧ t.devByte b a = v ∧ t.curBank = b ∧ t.dBank = b ∧
      (s.params.skipRedundant = false → t.dSel = bankCode s.params b) ∧
      ∀ (b' : Bank) (a' : Addr), a' ≠ 0x7F → (b', a') ≠ (b, a) → t.devByte b' a' = s.devByte b' a') ∧
    (a.toNat + 5 ≤ 0x7E → ∃ t : State, exec (.rdvb b a) s = .next t ∧
      t.rsps = s.rsps ++ [⟨.ok, [s.devByte b a, s.devByte b (a + 1), s.devByte b (a + 2), s.devByte b (a + 3),
        s.devByte b (a + 4), s.devByte b (a + 5)]⟩] ∧
      t.curBank = b ∧ t.dBank = b ∧ t.mem = s.mem ∧
      (s.params.skipRedundant = false → t.dSel = bankCode s.params b))

/-- R158: on the mock a `WRB` to one bank does not change what `RDB` of another bank returns. -/
def Obligations.BanksAreIndependent : Prop :=
  ∀ (b1 b2 : Bank) (a : Addr) (v : Byte) (s : State), s.transport = .mock → s.AllOk 12 → b1 ≠ b2 → a ≠ 0x7F →
    (s.params.skipRedundant = false ∨ s.Coherent) →
    ∃ t u u' : State, exec (.wrb b1 a v) s = .next t ∧ exec (.rdb b2 a) t = .next u ∧ exec (.rdb b2 a) s = .next u' ∧
      u.rsps = s.rsps ++ [⟨.ok, []⟩, ⟨.ok, [s.devByte b2 a]⟩] ∧ u'.rsps = s.rsps ++ [⟨.ok, [s.devByte b2 a]⟩]

/-- R156: when no failure occurs, a banked command leaves the same machine and the same trace as `SELB b` followed by
the raw command, and returns what the raw command returns; the sequence gives one OK response more. When the select
fails, the banked command and the sequence, whose host stops after the failed `SELB` (R170), agree as well. -/
def Obligations.BankedCommandIsSelectThenRaw : Prop :=
  ∀ (b : Bank) (a : Addr) (v : Byte) (s : State),
    ∀ p ∈ [(Instr.rdb b a, Instr.rdr a), (Instr.wrb b a v, Instr.wrr a v), (Instr.rdvb b a, Instr.rdv a)],
      (s.AllOk 6 → s.Served p.1 →
        ∃ (t t1 t2 : State) (r : Response), exec p.1 s = .next t ∧ exec (.selb b) s = .next t1 ∧
          exec p.2 t1 = .next t2 ∧ SameMachine t2 t ∧
          t.rsps = s.rsps ++ [r] ∧ t2.rsps = s.rsps ++ [⟨.ok, []⟩, r]) ∧
      (s.skips b = false → s.Answered 3 → ¬ s.AllOk 3 →
        ∃ (t t1 : State) (r : Response), exec p.1 s = .next t ∧ exec (.selb b) s = .next t1 ∧ SameMachine t1 t ∧
          t.rsps = s.rsps ++ [r] ∧ t1.rsps = s.rsps ++ [r] ∧ r.status ≠ .ok ∧
          (s.host.goesOn = false → t1.host.stopped = true ∧ t.host.stopped = true))

/-- R229: a write to 0x7F that does not go through SEL, raw or as the access of a `WRB`, sets the mock's selection to the
bank field of the byte written, while `cur_bank` is unchanged (raw) or `b` (banked); a raw read that follows the raw
write is answered from the device's bank, with status OK (R228). -/
def Obligations.BankSelectRegisterWriteBypassesTheShadow : Prop :=
  (∀ (v : Byte) (a : Addr) (s : State), s.transport = .mock → s.AllOk 6 →
    ∃ t u : State, exec (.wrr 0x7F v) s = .next t ∧ t.curBank = s.curBank ∧ t.dSel = v ∧
      t.dBank = bankField s.params v ∧ exec (.rdr a) t = .next u ∧
      u.rsps = s.rsps ++ [⟨.ok, []⟩, ⟨.ok, [if a = 0x7F then v else s.devByte (bankField s.params v) a]⟩]) ∧
  (∀ (b : Bank) (v : Byte) (s : State), s.transport = .mock → s.AllOk 6 →
    ∃ t : State, exec (.wrb b 0x7F v) s = .next t ∧ t.curBank = b ∧ t.dSel = v ∧ t.dBank = bankField s.params v)

/-! ### The host's side (context) -/

/-- R68, R69: the assemblies of bytes: big-endian puts the byte at the lower address in the high half, little-endian in
the low half, read as two's complement; the raw temperature is high byte first. -/
def Obligations.ByteAssembliesFollowTheirOrder : Prop :=
  (∀ lo hi : Byte,
    axisValue .big lo hi = (if lo.toNat < 128 then (256 * lo.toNat + hi.toNat : Int)
      else 256 * lo.toNat + hi.toNat - 65536) ∧
    axisValue .little lo hi = (if hi.toNat < 128 then (256 * hi.toNat + lo.toNat : Int)
      else 256 * hi.toNat + lo.toNat - 65536)) ∧
  (∀ (o : ByteOrder) (y1 y2 y3 y4 y5 y6 : Byte),
    vec3 o y1 y2 y3 y4 y5 y6 = ⟨axisValue o y1 y2, axisValue o y3 y4, axisValue o y5 y6⟩) ∧
  (∀ h l : Byte, (rawTemp h l).toNat = 256 * h.toNat + l.toNat)

/-- R178, R179: the temperature formula exactly, and the document's two worked examples to its two digits, exactly and in
32-bit floating point, for every rounding and every precision of the evaluation the model leaves open (log 16). -/
def Obligations.TemperatureFormula : Prop :=
  (∀ raw : Int, tempFormula raw * (33387 / 100) = raw - 20 + 21 * (33387 / 100)) ∧
  |tempFormula 0 - 2094 / 100| < 5 / 1000 ∧ |tempFormula 333 - 2194 / 100| < 5 / 1000 ∧
  ∀ (mode : Rounding) (eval : TempEval),
    |(temp32 mode eval 0).frac.value - 2094 / 100| < 5 / 1000 ∧
    |(temp32 mode eval 333).frac.value - 2194 / 100| < 5 / 1000

/-- R178, R180: on the mock, under always-write, `GETTEMP` returns the formula in 32-bit floating point of the bytes at
0x39 and 0x3A of Bank0, high byte first; `RDACCEL` and `RDGYRO` return `vec3`, in the open byte order, of the six bytes at
0x2D and at 0x33 of Bank0. -/
def Obligations.FacadeReadsReturnTheBytesAssembled : Prop :=
  ∀ s : State, s.transport = .mock → s.AllOk 9 → s.params.skipRedundant = false →
    (∃ t : State, facadeGetTemp s =
      (.ok (temp32 Config.tempRounding Config.tempEval
        (rawTempValue Config.rawTempSigned (rawTemp (s.devByte 0 0x39) (s.devByte 0 0x3A)))), t) ∧ t.curBank = 0) ∧
    (∃ t : State, facadeReadAccel s =
      (.ok (vec3 s.params.vecByteOrder (s.devByte 0 0x2D) (s.devByte 0 0x2E) (s.devByte 0 0x2F) (s.devByte 0 0x30)
        (s.devByte 0 0x31) (s.devByte 0 0x32)), t) ∧ t.curBank = 0) ∧
    (∃ t : State, facadeReadGyro s =
      (.ok (vec3 s.params.vecByteOrder (s.devByte 0 0x33) (s.devByte 0 0x34) (s.devByte 0 0x35) (s.devByte 0 0x36)
        (s.devByte 0 0x37) (s.devByte 0 0x38)), t) ∧ t.curBank = 0)

/-- R9, R37, R38: the register map constants of the document, and that the described and the undescribed bits of
power-management-1 are all of it. -/
def Obligations.RegisterMapConstants : Prop :=
  NamedReg.bankSelect.addr = 0x7F ∧ NamedReg.whoAmI.addr = 0x00 ∧ NamedReg.lowPowerConfig.addr = 0x05 ∧
  NamedReg.powerManagement1.addr = 0x06 ∧ (∀ k : Fin 4, (NamedReg.interruptEnable k).addr.toNat = 0x10 + k.val) ∧
  NamedReg.accelData.addr = 0x2D ∧ NamedReg.gyroData.addr = 0x33 ∧ NamedReg.temperatureHigh.addr = 0x39 ∧
  NamedReg.temperatureLow.addr = 0x3A ∧ NamedReg.fifoEnable2.addr = 0x67 ∧ whoAmIValue = 0xEA ∧ pollBound = 10 ∧
  (∀ v : Byte, (v &&& resetBitMask = 0 ↔ v.getLsbD 7 = false) ∧ (v &&& lowPowerMask = 0 ↔ v.getLsbD 6 = false) ∧
    (v &&& clockAutoMask = 0 ↔ v.getLsbD 0 = false)) ∧
  resetBitMask ||| lowPowerMask ||| clockAutoMask ||| undescribedMask = 0xFF

/-- R171, R225: on the mock `NEW` brings shadow and device to Bank0 under either policy, whatever the device held. -/
def Obligations.NewAgreesOnBankZero : Prop :=
  ∀ s : State, s.transport = .mock → s.AllOk 3 → ∃ t : State, facadeNew s = (.ok (), t) ∧ t.curBank = 0 ∧
    t.dBank = 0 ∧ t.trace = s.trace ++ [.low, .write [0x7F, 0x00], .high]

/-- R172, R173, R176: on the mock, under always-write, the identity check succeeds exactly when the byte at 0x00 of Bank0
is 0xEA and fails with InvalidID otherwise; either way the frames are those of `WHOAMI` and no others. `SETUP` ends where
an identity check that fails ends, with its error and no further frame; one that succeeds has, after the identity check,
written FIFO-enable-2 and each interrupt-enable register, the latter with a value that disables interrupts, at their
addresses. In which bank those registers stand and which values disable interrupts are arguments (log 17). -/
def Obligations.IdentityCheckComparesWhoAmI : Prop :=
  (∀ s : State, s.transport = .mock → s.AllOk 6 → s.params.skipRedundant = false →
    ∃ (t : State) (u : Byte),
      identityCheck s = ((if s.devByte 0 0x00 = 0xEA then .ok () else .error .invalidId), t) ∧
      t.trace = s.trace ++ selectTokens s.params 0 ++ [.low, .transfer [0x80, 0x00] [u, s.devByte 0 0x00], .high]) ∧
  (∀ (config : SetupConfig) (s : State), (identityCheck s).1 ≠ .ok () → facadeSetup config s = identityCheck s) ∧
  (∀ (config : SetupConfig) (s t : State), facadeSetup config s = (.ok (), t) →
    ∃ (u : State) (es : List Event), identityCheck s = (.ok (), u) ∧ t.trace = u.trace ++ es ∧
      (∃ v, Event.write [writeAddrByte NamedReg.fifoEnable2.addr, v] ∈ es) ∧
      ∀ k : Fin 4, ∃ v, config.unknown.off k v = true ∧
        Event.write [writeAddrByte (NamedReg.interruptEnable k).addr, v] ∈ es)

/-- R174, R194: on the mock, where the reset bit never clears, `SOFTRESET` ends after exactly ten attempts with
Unresponsive, after twelve transactions: two writes and ten reads. -/
def Obligations.SoftResetGivesUpAfterTenAttempts : Prop :=
  ∀ s : State, s.transport = .mock → s.AllOk 36 → s.params.skipRedundant = false →
    ∃ (t : State) (es : List Event), facadeSoftReset s = (.error .unresponsive, t) ∧ t.host.attempt = 10 ∧
      t.trace = s.trace ++ es ∧ lowCount es = 12 ∧ highCount es = 12 ∧ writeCount es = 2 ∧ transferCount es = 10
end

