-- ==== Sys2Proof/Laws/Memory.lean ====
section
/-! SUPPORT. The device's register file: read after write, the canonical form is kept, the keys of registers. -/

namespace Sys2Proof.Laws

open Sys2Proof.Machine

@[simp] theorem read_nil (a : Nat) : Memory.read [] a = unlistedByte := rfl

@[simp] theorem read_cons (k : Nat) (v : Byte) (m : Memory) (a : Nat) :
    Memory.read ((k, v) :: m) a = if k = a then v else Memory.read m a := rfl

@[simp] theorem read_erase_same (m : Memory) (a : Nat) : Memory.read (Memory.erase m a) a = unlistedByte := by
  induction m with
  | nil => rfl
  | cons c m ih =>
    unfold Memory.erase
    split
    · exact ih
    · rename_i hk; rw [read_cons, if_neg hk, ih]

theorem read_erase_other {m : Memory} {a a' : Nat} (h : a' ≠ a) :
    Memory.read (Memory.erase m a) a' = Memory.read m a' := by
  induction m with
  | nil => rfl
  | cons c m ih =>
    unfold Memory.erase
    split
    · rename_i hk; rw [ih, read_cons, if_neg (by omega)]
    · rw [read_cons, read_cons, ih]

/-- A cell put among cells of other keys is the one read. -/
theorem read_insert_same {m : Memory} {a : Nat} {v : Byte} :
    Memory.read (Memory.insert (Memory.erase m a) a v) a = v := by
  induction m with
  | nil => simp [Memory.erase, Memory.insert]
  | cons c m ih =>
    unfold Memory.erase
    split
    · exact ih
    · rename_i hk
      unfold Memory.insert
      split
      · simp
      · rw [read_cons, if_neg hk, ih]

theorem read_insert_other {m : Memory} {a a' : Nat} {v : Byte} (h : a' ≠ a) :
    Memory.read (Memory.insert m a v) a' = Memory.read m a' := by
  induction m with
  | nil => simp [Memory.insert, Ne.symm h]
  | cons c m ih =>
    unfold Memory.insert
    split
    · rw [read_cons, if_neg (Ne.symm h)]
    · rw [read_cons, read_cons, ih]

/-- A byte stored is the byte read. -/
@[simp] theorem read_write_same (m : Memory) (a : Nat) (v : Byte) : Memory.read (Memory.write m a v) a = v := by
  unfold Memory.write
  split
  · rename_i hv; rw [hv, read_erase_same]
  · exact read_insert_same

/-- A store to another key does not show. -/
theorem read_write_other {m : Memory} {a a' : Nat} {v : Byte} (h : a' ≠ a) :
    Memory.read (Memory.write m a v) a' = Memory.read m a' := by
  unfold Memory.write
  split
  · exact read_erase_other h
  · rw [read_insert_other h, read_erase_other h]

theorem wfFrom_mono {m : Memory} {lo lo' : Nat} (h : Memory.wfFrom lo m = true) (hl : lo' ≤ lo) :
    Memory.wfFrom lo' m = true := by
  cases m with
  | nil => rfl
  | cons c m =>
    simp only [Memory.wfFrom, Bool.and_eq_true, decide_eq_true_eq] at h ⊢
    exact ⟨⟨⟨by omega, h.1.1.2⟩, h.1.2⟩, h.2⟩

theorem wfFrom_erase {m : Memory} {lo : Nat} (a : Nat) (h : Memory.wfFrom lo m = true) :
    Memory.wfFrom lo (Memory.erase m a) = true := by
  induction m generalizing lo with
  | nil => rfl
  | cons c m ih =>
    simp only [Memory.wfFrom, Bool.and_eq_true, decide_eq_true_eq] at h
    unfold Memory.erase
    split
    · exact ih (wfFrom_mono h.2 (by omega))
    · simp only [Memory.wfFrom, Bool.and_eq_true, decide_eq_true_eq]
      exact ⟨h.1, ih h.2⟩

theorem wfFrom_insert {m : Memory} {lo a : Nat} {v : Byte} (h : Memory.wfFrom lo (Memory.erase m a) = true)
    (hl : lo ≤ a) (ha : isRegKey a = true) (hv : v ≠ unlistedByte) :
    Memory.wfFrom lo (Memory.insert (Memory.erase m a) a v) = true := by
  induction m generalizing lo with
  | nil => simp [Memory.erase, Memory.insert, Memory.wfFrom, hl, ha, hv]
  | cons c m ih =>
    unfold Memory.erase at h ⊢
    split at h
    · rename_i hk; rw [if_pos hk]; exact ih h hl
    · rename_i hk
      rw [if_neg hk]
      simp only [Memory.wfFrom, Bool.and_eq_true, decide_eq_true_eq] at h
      unfold Memory.insert
      split
      · simp only [Memory.wfFrom, Bool.and_eq_true, decide_eq_true_eq, bne_iff_ne]
        exact ⟨⟨⟨hl, ha⟩, hv⟩, ⟨⟨⟨by omega, h.1.1.2⟩, by simpa using h.1.2⟩, h.2⟩⟩
      · simp only [Memory.wfFrom, Bool.and_eq_true, decide_eq_true_eq]
        exact ⟨h.1, ih h.2 (by omega)⟩

/-- A store keeps the canonical form. -/
theorem wf_write {m : Memory} {a : Nat} {v : Byte} (h : Memory.wf m = true) (ha : isRegKey a = true) :
    Memory.wf (Memory.write m a v) = true := by
  unfold Memory.write
  split
  · exact wfFrom_erase a h
  · rename_i hv; exact wfFrom_insert (wfFrom_erase a h) (Nat.zero_le a) ha hv

/-- Below the lower bound of its keys a canonical list reads as unlisted. -/
theorem read_of_wfFrom_gt {m : Memory} {lo a : Nat} (h : Memory.wfFrom lo m = true) (ha : a < lo) :
    Memory.read m a = unlistedByte := by
  induction m generalizing lo with
  | nil => rfl
  | cons c m ih =>
    obtain ⟨k, v⟩ := c
    simp only [Memory.wfFrom, Bool.and_eq_true, decide_eq_true_eq] at h
    rw [read_cons, if_neg (by omega)]
    exact ih h.2 (by omega)

/-- Two canonical lists that read alike are the same list. -/
theorem memory_ext {m m' : Memory} {lo lo' : Nat} (h : Memory.wfFrom lo m = true) (h' : Memory.wfFrom lo' m' = true)
    (hr : ∀ a, Memory.read m a = Memory.read m' a) : m = m' := by
  induction m generalizing lo lo' m' with
  | nil =>
    cases m' with
    | nil => rfl
    | cons c m' =>
      obtain ⟨k, v⟩ := c
      simp only [Memory.wfFrom, Bool.and_eq_true, bne_iff_ne] at h'
      have := hr k
      simp only [read_nil, read_cons, if_true] at this
      exact absurd this.symm h'.1.2
  | cons c m ih =>
    obtain ⟨k, v⟩ := c
    simp only [Memory.wfFrom, Bool.and_eq_true, bne_iff_ne, decide_eq_true_eq] at h
    cases m' with
    | nil =>
      have := hr k
      simp only [read_nil, read_cons, if_true] at this
      exact absurd this h.1.2
    | cons c' m' =>
      obtain ⟨k', v'⟩ := c'
      simp only [Memory.wfFrom, Bool.and_eq_true, bne_iff_ne, decide_eq_true_eq] at h'
      have hk : k = k' := by
        rcases Nat.lt_trichotomy k k' with hlt | heq | hgt
        · have := hr k
          rw [read_cons, if_pos rfl, read_cons, if_neg (by omega), read_of_wfFrom_gt h'.2 (by omega)] at this
          exact absurd this h.1.2
        · exact heq
        · have := hr k'
          rw [read_cons, if_neg (by omega), read_cons, if_pos rfl, read_of_wfFrom_gt h.2 (by omega)] at this
          exact absurd this.symm h'.1.2
      subst hk
      have hv : v = v' := by simpa using hr k
      subst hv
      congr 1
      refine ih h.2 h'.2 fun a => ?_
      by_cases ha : k = a
      · subst ha; rw [read_of_wfFrom_gt h.2 (by omega), read_of_wfFrom_gt h'.2 (by omega)]
      · have := hr a; simpa [ha] using this

/-- The key of a register outside 0x7F is a key of `d_reg`. -/
theorem isRegKey_regKey (b : Bank) {a : Addr} (h : a ≠ bankSelAddr) : isRegKey (regKey b a) = true := by
  have hb := b.isLt
  have ha := a.isLt
  have hne : a.toNat ≠ 127 := fun e => h (BitVec.eq_of_toNat_eq e)
  have hn : a ≠ 0x7F := h
  simp only [isRegKey, regKey, if_neg hn, Bool.and_eq_true, decide_eq_true_eq, bne_iff_ne]
  omega

/-- Outside 0x7F, different names have different keys (R54). -/
theorem regKey_inj {b b' : Bank} {a a' : Addr} (h : a ≠ bankSelAddr) (h' : a' ≠ bankSelAddr)
    (he : regKey b a = regKey b' a') : b = b' ∧ a = a' := by
  have hn : a ≠ 0x7F := h
  have hn' : a' ≠ 0x7F := h'
  have ha := a.isLt
  have ha' := a'.isLt
  simp only [regKey, if_neg hn, if_neg hn'] at he
  exact ⟨BitVec.eq_of_toNat_eq (by omega), BitVec.eq_of_toNat_eq (by omega)⟩

/-- The key of the bank-select register is no other register's. -/
theorem regKey_ne_sel (b b' : Bank) {a : Addr} (h : a ≠ bankSelAddr) : regKey b a ≠ regKey b' bankSelAddr := by
  have hn : a ≠ 0x7F := h
  have hne : a.toNat ≠ 127 := fun e => h (BitVec.eq_of_toNat_eq e)
  have ha := a.isLt
  simp only [regKey, if_neg hn, bankSelAddr, if_true]
  omega

end Sys2Proof.Laws
end

