-- ==== Sys2Proof/Laws/State.lean ====
section
/-! SUPPORT. One lemma per field per update of the state, so that no later proof unfolds a record update. -/

namespace Sys2Proof.Laws

open Sys2Proof.Machine

/-! ### `State.setPh` -/

@[simp] theorem setPh_params (ph : Phase) (s : State) : (s.setPh ph).params = s.params := rfl
@[simp] theorem setPh_curBank (ph : Phase) (s : State) : (s.setPh ph).curBank = s.curBank := rfl
@[simp] theorem setPh_ph (ph : Phase) (s : State) : (s.setPh ph).ph = ph := rfl
@[simp] theorem setPh_cOp (ph : Phase) (s : State) : (s.setPh ph).cOp = s.cOp := rfl
@[simp] theorem setPh_cBank (ph : Phase) (s : State) : (s.setPh ph).cBank = s.cBank := rfl
@[simp] theorem setPh_cAddr (ph : Phase) (s : State) : (s.setPh ph).cAddr = s.cAddr := rfl
@[simp] theorem setPh_cData (ph : Phase) (s : State) : (s.setPh ph).cData = s.cData := rfl
@[simp] theorem setPh_xb (ph : Phase) (s : State) : (s.setPh ph).xb = s.xb := rfl
@[simp] theorem setPh_xn (ph : Phase) (s : State) : (s.setPh ph).xn = s.xn := rfl
@[simp] theorem setPh_pend (ph : Phase) (s : State) : (s.setPh ph).pend = s.pend := rfl
@[simp] theorem setPh_rst (ph : Phase) (s : State) : (s.setPh ph).rst = s.rst := rfl
@[simp] theorem setPh_rsps (ph : Phase) (s : State) : (s.setPh ph).rsps = s.rsps := rfl
@[simp] theorem setPh_trace (ph : Phase) (s : State) : (s.setPh ph).trace = s.trace := rfl
@[simp] theorem setPh_cs (ph : Phase) (s : State) : (s.setPh ph).cs = s.cs := rfl
@[simp] theorem setPh_transport (ph : Phase) (s : State) : (s.setPh ph).transport = s.transport := rfl
@[simp] theorem setPh_script (ph : Phase) (s : State) : (s.setPh ph).script = s.script := rfl
@[simp] theorem setPh_grain (ph : Phase) (s : State) : (s.setPh ph).grain = s.grain := rfl
@[simp] theorem setPh_tick (ph : Phase) (s : State) : (s.setPh ph).tick = s.tick := rfl
@[simp] theorem setPh_drops (ph : Phase) (s : State) : (s.setPh ph).drops = s.drops := rfl
@[simp] theorem setPh_dSel (ph : Phase) (s : State) : (s.setPh ph).dSel = s.dSel := rfl
@[simp] theorem setPh_mem (ph : Phase) (s : State) : (s.setPh ph).mem = s.mem := rfl
@[simp] theorem setPh_host (ph : Phase) (s : State) : (s.setPh ph).host = s.host := rfl

/-! ### `State.setPend` -/

@[simp] theorem setPend_params (q : Pend) (s : State) : (s.setPend q).params = s.params := rfl
@[simp] theorem setPend_curBank (q : Pend) (s : State) : (s.setPend q).curBank = s.curBank := rfl
@[simp] theorem setPend_ph (q : Pend) (s : State) : (s.setPend q).ph = s.ph := rfl
@[simp] theorem setPend_cOp (q : Pend) (s : State) : (s.setPend q).cOp = s.cOp := rfl
@[simp] theorem setPend_cBank (q : Pend) (s : State) : (s.setPend q).cBank = s.cBank := rfl
@[simp] theorem setPend_cAddr (q : Pend) (s : State) : (s.setPend q).cAddr = s.cAddr := rfl
@[simp] theorem setPend_cData (q : Pend) (s : State) : (s.setPend q).cData = s.cData := rfl
@[simp] theorem setPend_xb (q : Pend) (s : State) : (s.setPend q).xb = s.xb := rfl
@[simp] theorem setPend_xn (q : Pend) (s : State) : (s.setPend q).xn = s.xn := rfl
@[simp] theorem setPend_pend (q : Pend) (s : State) : (s.setPend q).pend = q := rfl
@[simp] theorem setPend_rst (q : Pend) (s : State) : (s.setPend q).rst = s.rst := rfl
@[simp] theorem setPend_rsps (q : Pend) (s : State) : (s.setPend q).rsps = s.rsps := rfl
@[simp] theorem setPend_trace (q : Pend) (s : State) : (s.setPend q).trace = s.trace := rfl
@[simp] theorem setPend_cs (q : Pend) (s : State) : (s.setPend q).cs = s.cs := rfl
@[simp] theorem setPend_transport (q : Pend) (s : State) : (s.setPend q).transport = s.transport := rfl
@[simp] theorem setPend_script (q : Pend) (s : State) : (s.setPend q).script = s.script := rfl
@[simp] theorem setPend_grain (q : Pend) (s : State) : (s.setPend q).grain = s.grain := rfl
@[simp] theorem setPend_tick (q : Pend) (s : State) : (s.setPend q).tick = s.tick := rfl
@[simp] theorem setPend_drops (q : Pend) (s : State) : (s.setPend q).drops = s.drops := rfl
@[simp] theorem setPend_dSel (q : Pend) (s : State) : (s.setPend q).dSel = s.dSel := rfl
@[simp] theorem setPend_mem (q : Pend) (s : State) : (s.setPend q).mem = s.mem := rfl
@[simp] theorem setPend_host (q : Pend) (s : State) : (s.setPend q).host = s.host := rfl

/-! ### `State.setFrame` -/

@[simp] theorem setFrame_params (x : XBuf) (n : FrameLen) (s : State) : (s.setFrame x n).params = s.params := rfl
@[simp] theorem setFrame_curBank (x : XBuf) (n : FrameLen) (s : State) : (s.setFrame x n).curBank = s.curBank := rfl
@[simp] theorem setFrame_ph (x : XBuf) (n : FrameLen) (s : State) : (s.setFrame x n).ph = s.ph := rfl
@[simp] theorem setFrame_cOp (x : XBuf) (n : FrameLen) (s : State) : (s.setFrame x n).cOp = s.cOp := rfl
@[simp] theorem setFrame_cBank (x : XBuf) (n : FrameLen) (s : State) : (s.setFrame x n).cBank = s.cBank := rfl
@[simp] theorem setFrame_cAddr (x : XBuf) (n : FrameLen) (s : State) : (s.setFrame x n).cAddr = s.cAddr := rfl
@[simp] theorem setFrame_cData (x : XBuf) (n : FrameLen) (s : State) : (s.setFrame x n).cData = s.cData := rfl
@[simp] theorem setFrame_xb (x : XBuf) (n : FrameLen) (s : State) : (s.setFrame x n).xb = x := rfl
@[simp] theorem setFrame_xn (x : XBuf) (n : FrameLen) (s : State) : (s.setFrame x n).xn = n := rfl
@[simp] theorem setFrame_pend (x : XBuf) (n : FrameLen) (s : State) : (s.setFrame x n).pend = s.pend := rfl
@[simp] theorem setFrame_rst (x : XBuf) (n : FrameLen) (s : State) : (s.setFrame x n).rst = s.rst := rfl
@[simp] theorem setFrame_rsps (x : XBuf) (n : FrameLen) (s : State) : (s.setFrame x n).rsps = s.rsps := rfl
@[simp] theorem setFrame_trace (x : XBuf) (n : FrameLen) (s : State) : (s.setFrame x n).trace = s.trace := rfl
@[simp] theorem setFrame_cs (x : XBuf) (n : FrameLen) (s : State) : (s.setFrame x n).cs = s.cs := rfl
@[simp] theorem setFrame_transport (x : XBuf) (n : FrameLen) (s : State) : (s.setFrame x n).transport = s.transport := rfl
@[simp] theorem setFrame_script (x : XBuf) (n : FrameLen) (s : State) : (s.setFrame x n).script = s.script := rfl
@[simp] theorem setFrame_grain (x : XBuf) (n : FrameLen) (s : State) : (s.setFrame x n).grain = s.grain := rfl
@[simp] theorem setFrame_tick (x : XBuf) (n : FrameLen) (s : State) : (s.setFrame x n).tick = s.tick := rfl
@[simp] theorem setFrame_drops (x : XBuf) (n : FrameLen) (s : State) : (s.setFrame x n).drops = s.drops := rfl
@[simp] theorem setFrame_dSel (x : XBuf) (n : FrameLen) (s : State) : (s.setFrame x n).dSel = s.dSel := rfl
@[simp] theorem setFrame_mem (x : XBuf) (n : FrameLen) (s : State) : (s.setFrame x n).mem = s.mem := rfl
@[simp] theorem setFrame_host (x : XBuf) (n : FrameLen) (s : State) : (s.setFrame x n).host = s.host := rfl

/-! ### `State.setXb` -/

@[simp] theorem setXb_params (x : XBuf) (s : State) : (s.setXb x).params = s.params := rfl
@[simp] theorem setXb_curBank (x : XBuf) (s : State) : (s.setXb x).curBank = s.curBank := rfl
@[simp] theorem setXb_ph (x : XBuf) (s : State) : (s.setXb x).ph = s.ph := rfl
@[simp] theorem setXb_cOp (x : XBuf) (s : State) : (s.setXb x).cOp = s.cOp := rfl
@[simp] theorem setXb_cBank (x : XBuf) (s : State) : (s.setXb x).cBank = s.cBank := rfl
@[simp] theorem setXb_cAddr (x : XBuf) (s : State) : (s.setXb x).cAddr = s.cAddr := rfl
@[simp] theorem setXb_cData (x : XBuf) (s : State) : (s.setXb x).cData = s.cData := rfl
@[simp] theorem setXb_xb (x : XBuf) (s : State) : (s.setXb x).xb = x := rfl
@[simp] theorem setXb_xn (x : XBuf) (s : State) : (s.setXb x).xn = s.xn := rfl
@[simp] theorem setXb_pend (x : XBuf) (s : State) : (s.setXb x).pend = s.pend := rfl
@[simp] theorem setXb_rst (x : XBuf) (s : State) : (s.setXb x).rst = s.rst := rfl
@[simp] theorem setXb_rsps (x : XBuf) (s : State) : (s.setXb x).rsps = s.rsps := rfl
@[simp] theorem setXb_trace (x : XBuf) (s : State) : (s.setXb x).trace = s.trace := rfl
@[simp] theorem setXb_cs (x : XBuf) (s : State) : (s.setXb x).cs = s.cs := rfl
@[simp] theorem setXb_transport (x : XBuf) (s : State) : (s.setXb x).transport = s.transport := rfl
@[simp] theorem setXb_script (x : XBuf) (s : State) : (s.setXb x).script = s.script := rfl
@[simp] theorem setXb_grain (x : XBuf) (s : State) : (s.setXb x).grain = s.grain := rfl
@[simp] theorem setXb_tick (x : XBuf) (s : State) : (s.setXb x).tick = s.tick := rfl
@[simp] theorem setXb_drops (x : XBuf) (s : State) : (s.setXb x).drops = s.drops := rfl
@[simp] theorem setXb_dSel (x : XBuf) (s : State) : (s.setXb x).dSel = s.dSel := rfl
@[simp] theorem setXb_mem (x : XBuf) (s : State) : (s.setXb x).mem = s.mem := rfl
@[simp] theorem setXb_host (x : XBuf) (s : State) : (s.setXb x).host = s.host := rfl

/-! ### `State.setCurBank` -/

@[simp] theorem setCurBank_params (b : Bank) (s : State) : (s.setCurBank b).params = s.params := rfl
@[simp] theorem setCurBank_curBank (b : Bank) (s : State) : (s.setCurBank b).curBank = b := rfl
@[simp] theorem setCurBank_ph (b : Bank) (s : State) : (s.setCurBank b).ph = s.ph := rfl
@[simp] theorem setCurBank_cOp (b : Bank) (s : State) : (s.setCurBank b).cOp = s.cOp := rfl
@[simp] theorem setCurBank_cBank (b : Bank) (s : State) : (s.setCurBank b).cBank = s.cBank := rfl
@[simp] theorem setCurBank_cAddr (b : Bank) (s : State) : (s.setCurBank b).cAddr = s.cAddr := rfl
@[simp] theorem setCurBank_cData (b : Bank) (s : State) : (s.setCurBank b).cData = s.cData := rfl
@[simp] theorem setCurBank_xb (b : Bank) (s : State) : (s.setCurBank b).xb = s.xb := rfl
@[simp] theorem setCurBank_xn (b : Bank) (s : State) : (s.setCurBank b).xn = s.xn := rfl
@[simp] theorem setCurBank_pend (b : Bank) (s : State) : (s.setCurBank b).pend = s.pend := rfl
@[simp] theorem setCurBank_rst (b : Bank) (s : State) : (s.setCurBank b).rst = s.rst := rfl
@[simp] theorem setCurBank_rsps (b : Bank) (s : State) : (s.setCurBank b).rsps = s.rsps := rfl
@[simp] theorem setCurBank_trace (b : Bank) (s : State) : (s.setCurBank b).trace = s.trace := rfl
@[simp] theorem setCurBank_cs (b : Bank) (s : State) : (s.setCurBank b).cs = s.cs := rfl
@[simp] theorem setCurBank_transport (b : Bank) (s : State) : (s.setCurBank b).transport = s.transport := rfl
@[simp] theorem setCurBank_script (b : Bank) (s : State) : (s.setCurBank b).script = s.script := rfl
@[simp] theorem setCurBank_grain (b : Bank) (s : State) : (s.setCurBank b).grain = s.grain := rfl
@[simp] theorem setCurBank_tick (b : Bank) (s : State) : (s.setCurBank b).tick = s.tick := rfl
@[simp] theorem setCurBank_drops (b : Bank) (s : State) : (s.setCurBank b).drops = s.drops := rfl
@[simp] theorem setCurBank_dSel (b : Bank) (s : State) : (s.setCurBank b).dSel = s.dSel := rfl
@[simp] theorem setCurBank_mem (b : Bank) (s : State) : (s.setCurBank b).mem = s.mem := rfl
@[simp] theorem setCurBank_host (b : Bank) (s : State) : (s.setCurBank b).host = s.host := rfl

/-! ### `State.setCs` -/

@[simp] theorem setCs_params (l : Level) (s : State) : (s.setCs l).params = s.params := rfl
@[simp] theorem setCs_curBank (l : Level) (s : State) : (s.setCs l).curBank = s.curBank := rfl
@[simp] theorem setCs_ph (l : Level) (s : State) : (s.setCs l).ph = s.ph := rfl
@[simp] theorem setCs_cOp (l : Level) (s : State) : (s.setCs l).cOp = s.cOp := rfl
@[simp] theorem setCs_cBank (l : Level) (s : State) : (s.setCs l).cBank = s.cBank := rfl
@[simp] theorem setCs_cAddr (l : Level) (s : State) : (s.setCs l).cAddr = s.cAddr := rfl
@[simp] theorem setCs_cData (l : Level) (s : State) : (s.setCs l).cData = s.cData := rfl
@[simp] theorem setCs_xb (l : Level) (s : State) : (s.setCs l).xb = s.xb := rfl
@[simp] theorem setCs_xn (l : Level) (s : State) : (s.setCs l).xn = s.xn := rfl
@[simp] theorem setCs_pend (l : Level) (s : State) : (s.setCs l).pend = s.pend := rfl
@[simp] theorem setCs_rst (l : Level) (s : State) : (s.setCs l).rst = s.rst := rfl
@[simp] theorem setCs_rsps (l : Level) (s : State) : (s.setCs l).rsps = s.rsps := rfl
@[simp] theorem setCs_trace (l : Level) (s : State) : (s.setCs l).trace = s.trace := rfl
@[simp] theorem setCs_cs (l : Level) (s : State) : (s.setCs l).cs = l := rfl
@[simp] theorem setCs_transport (l : Level) (s : State) : (s.setCs l).transport = s.transport := rfl
@[simp] theorem setCs_script (l : Level) (s : State) : (s.setCs l).script = s.script := rfl
@[simp] theorem setCs_grain (l : Level) (s : State) : (s.setCs l).grain = s.grain := rfl
@[simp] theorem setCs_tick (l : Level) (s : State) : (s.setCs l).tick = s.tick := rfl
@[simp] theorem setCs_drops (l : Level) (s : State) : (s.setCs l).drops = s.drops := rfl
@[simp] theorem setCs_dSel (l : Level) (s : State) : (s.setCs l).dSel = s.dSel := rfl
@[simp] theorem setCs_mem (l : Level) (s : State) : (s.setCs l).mem = s.mem := rfl
@[simp] theorem setCs_host (l : Level) (s : State) : (s.setCs l).host = s.host := rfl

/-! ### `State.log` -/

@[simp] theorem log_params (e : Event) (s : State) : (s.log e).params = s.params := rfl
@[simp] theorem log_curBank (e : Event) (s : State) : (s.log e).curBank = s.curBank := rfl
@[simp] theorem log_ph (e : Event) (s : State) : (s.log e).ph = s.ph := rfl
@[simp] theorem log_cOp (e : Event) (s : State) : (s.log e).cOp = s.cOp := rfl
@[simp] theorem log_cBank (e : Event) (s : State) : (s.log e).cBank = s.cBank := rfl
@[simp] theorem log_cAddr (e : Event) (s : State) : (s.log e).cAddr = s.cAddr := rfl
@[simp] theorem log_cData (e : Event) (s : State) : (s.log e).cData = s.cData := rfl
@[simp] theorem log_xb (e : Event) (s : State) : (s.log e).xb = s.xb := rfl
@[simp] theorem log_xn (e : Event) (s : State) : (s.log e).xn = s.xn := rfl
@[simp] theorem log_pend (e : Event) (s : State) : (s.log e).pend = s.pend := rfl
@[simp] theorem log_rst (e : Event) (s : State) : (s.log e).rst = s.rst := rfl
@[simp] theorem log_rsps (e : Event) (s : State) : (s.log e).rsps = s.rsps := rfl
@[simp] theorem log_trace (e : Event) (s : State) : (s.log e).trace = s.trace ++ [e] := rfl
@[simp] theorem log_cs (e : Event) (s : State) : (s.log e).cs = s.cs := rfl
@[simp] theorem log_transport (e : Event) (s : State) : (s.log e).transport = s.transport := rfl
@[simp] theorem log_script (e : Event) (s : State) : (s.log e).script = s.script := rfl
@[simp] theorem log_grain (e : Event) (s : State) : (s.log e).grain = s.grain := rfl
@[simp] theorem log_tick (e : Event) (s : State) : (s.log e).tick = s.tick := rfl
@[simp] theorem log_drops (e : Event) (s : State) : (s.log e).drops = s.drops := rfl
@[simp] theorem log_dSel (e : Event) (s : State) : (s.log e).dSel = s.dSel := rfl
@[simp] theorem log_mem (e : Event) (s : State) : (s.log e).mem = s.mem := rfl
@[simp] theorem log_host (e : Event) (s : State) : (s.log e).host = s.host := rfl

/-! ### `latch` -/

@[simp] theorem latch_params (i : Instr) (s : State) : (latch i s).params = s.params := rfl
@[simp] theorem latch_curBank (i : Instr) (s : State) : (latch i s).curBank = s.curBank := rfl
@[simp] theorem latch_ph (i : Instr) (s : State) : (latch i s).ph = s.ph := rfl
@[simp] theorem latch_cOp (i : Instr) (s : State) : (latch i s).cOp = i.fields.op := rfl
@[simp] theorem latch_cBank (i : Instr) (s : State) : (latch i s).cBank = i.fields.bank := rfl
@[simp] theorem latch_cAddr (i : Instr) (s : State) : (latch i s).cAddr = i.fields.addr := rfl
@[simp] theorem latch_cData (i : Instr) (s : State) : (latch i s).cData = i.fields.data := rfl
@[simp] theorem latch_xb (i : Instr) (s : State) : (latch i s).xb = s.xb := rfl
@[simp] theorem latch_xn (i : Instr) (s : State) : (latch i s).xn = s.xn := rfl
@[simp] theorem latch_pend (i : Instr) (s : State) : (latch i s).pend = .none := rfl
@[simp] theorem latch_rst (i : Instr) (s : State) : (latch i s).rst = s.rst := rfl
@[simp] theorem latch_rsps (i : Instr) (s : State) : (latch i s).rsps = s.rsps := rfl
@[simp] theorem latch_trace (i : Instr) (s : State) : (latch i s).trace = s.trace := rfl
@[simp] theorem latch_cs (i : Instr) (s : State) : (latch i s).cs = s.cs := rfl
@[simp] theorem latch_transport (i : Instr) (s : State) : (latch i s).transport = s.transport := rfl
@[simp] theorem latch_script (i : Instr) (s : State) : (latch i s).script = s.script := rfl
@[simp] theorem latch_grain (i : Instr) (s : State) : (latch i s).grain = s.grain := rfl
@[simp] theorem latch_tick (i : Instr) (s : State) : (latch i s).tick = s.tick := rfl
@[simp] theorem latch_drops (i : Instr) (s : State) : (latch i s).drops = s.drops := rfl
@[simp] theorem latch_dSel (i : Instr) (s : State) : (latch i s).dSel = s.dSel := rfl
@[simp] theorem latch_mem (i : Instr) (s : State) : (latch i s).mem = s.mem := rfl
@[simp] theorem latch_host (i : Instr) (s : State) : (latch i s).host = s.host := rfl

/-! ### `State.dropLatches` -/

@[simp] theorem dropLatches_params (s : State) : (s.dropLatches).params = s.params := rfl
@[simp] theorem dropLatches_curBank (s : State) : (s.dropLatches).curBank = s.curBank := rfl
@[simp] theorem dropLatches_ph (s : State) : (s.dropLatches).ph = s.ph := rfl
@[simp] theorem dropLatches_cOp (s : State) : (s.dropLatches).cOp = (Config.freeLeftovers s.drops).op := rfl
@[simp] theorem dropLatches_cBank (s : State) : (s.dropLatches).cBank = (Config.freeLeftovers s.drops).bank := rfl
@[simp] theorem dropLatches_cAddr (s : State) : (s.dropLatches).cAddr = (Config.freeLeftovers s.drops).addr := rfl
@[simp] theorem dropLatches_cData (s : State) : (s.dropLatches).cData = (Config.freeLeftovers s.drops).data := rfl
@[simp] theorem dropLatches_xb (s : State) : (s.dropLatches).xb = (Config.freeLeftovers s.drops).xb := rfl
@[simp] theorem dropLatches_xn (s : State) : (s.dropLatches).xn = (Config.freeLeftovers s.drops).xn := rfl
@[simp] theorem dropLatches_pend (s : State) : (s.dropLatches).pend = s.pend := rfl
@[simp] theorem dropLatches_rst (s : State) : (s.dropLatches).rst = s.rst := rfl
@[simp] theorem dropLatches_rsps (s : State) : (s.dropLatches).rsps = s.rsps := rfl
@[simp] theorem dropLatches_trace (s : State) : (s.dropLatches).trace = s.trace := rfl
@[simp] theorem dropLatches_cs (s : State) : (s.dropLatches).cs = s.cs := rfl
@[simp] theorem dropLatches_transport (s : State) : (s.dropLatches).transport = s.transport := rfl
@[simp] theorem dropLatches_script (s : State) : (s.dropLatches).script = s.script := rfl
@[simp] theorem dropLatches_grain (s : State) : (s.dropLatches).grain = s.grain := rfl
@[simp] theorem dropLatches_tick (s : State) : (s.dropLatches).tick = s.tick := rfl
@[simp] theorem dropLatches_drops (s : State) : (s.dropLatches).drops = s.drops + 1 := rfl
@[simp] theorem dropLatches_dSel (s : State) : (s.dropLatches).dSel = s.dSel := rfl
@[simp] theorem dropLatches_mem (s : State) : (s.dropLatches).mem = s.mem := rfl
@[simp] theorem dropLatches_host (s : State) : (s.dropLatches).host = s.host := rfl

/-! ### `State.send` -/

@[simp] theorem send_params (r : Response) (s : State) : (s.send r).params = s.params := rfl
@[simp] theorem send_curBank (r : Response) (s : State) : (s.send r).curBank = s.curBank := rfl
@[simp] theorem send_ph (r : Response) (s : State) : (s.send r).ph = s.ph := rfl
@[simp] theorem send_cOp (r : Response) (s : State) : (s.send r).cOp = s.cOp := rfl
@[simp] theorem send_cBank (r : Response) (s : State) : (s.send r).cBank = s.cBank := rfl
@[simp] theorem send_cAddr (r : Response) (s : State) : (s.send r).cAddr = s.cAddr := rfl
@[simp] theorem send_cData (r : Response) (s : State) : (s.send r).cData = s.cData := rfl
@[simp] theorem send_xb (r : Response) (s : State) : (s.send r).xb = s.xb := rfl
@[simp] theorem send_xn (r : Response) (s : State) : (s.send r).xn = s.xn := rfl
@[simp] theorem send_pend (r : Response) (s : State) : (s.send r).pend = s.pend := rfl
@[simp] theorem send_rst (r : Response) (s : State) : (s.send r).rst = s.rst := rfl
@[simp] theorem send_rsps (r : Response) (s : State) : (s.send r).rsps = s.rsps ++ [r] := rfl
@[simp] theorem send_trace (r : Response) (s : State) : (s.send r).trace = s.trace := rfl
@[simp] theorem send_cs (r : Response) (s : State) : (s.send r).cs = s.cs := rfl
@[simp] theorem send_transport (r : Response) (s : State) : (s.send r).transport = s.transport := rfl
@[simp] theorem send_script (r : Response) (s : State) : (s.send r).script = s.script := rfl
@[simp] theorem send_grain (r : Response) (s : State) : (s.send r).grain = s.grain := rfl
@[simp] theorem send_tick (r : Response) (s : State) : (s.send r).tick = s.tick := rfl
@[simp] theorem send_drops (r : Response) (s : State) : (s.send r).drops = s.drops := rfl
@[simp] theorem send_dSel (r : Response) (s : State) : (s.send r).dSel = s.dSel := rfl
@[simp] theorem send_mem (r : Response) (s : State) : (s.send r).mem = s.mem := rfl
@[simp] theorem send_host (r : Response) (s : State) : (s.send r).host = s.host.receive r := rfl

/-! ### `endCommand` -/

@[simp] theorem endCommand_params (r : Response) (s : State) : (endCommand r s).params = s.params := rfl
@[simp] theorem endCommand_curBank (r : Response) (s : State) : (endCommand r s).curBank = s.curBank := rfl
@[simp] theorem endCommand_ph (r : Response) (s : State) : (endCommand r s).ph = .idle := rfl
@[simp] theorem endCommand_cOp (r : Response) (s : State) : (endCommand r s).cOp = (Config.freeLeftovers s.drops).op := rfl
@[simp] theorem endCommand_cBank (r : Response) (s : State) : (endCommand r s).cBank = (Config.freeLeftovers s.drops).bank := rfl
@[simp] theorem endCommand_cAddr (r : Response) (s : State) : (endCommand r s).cAddr = (Config.freeLeftovers s.drops).addr := rfl
@[simp] theorem endCommand_cData (r : Response) (s : State) : (endCommand r s).cData = (Config.freeLeftovers s.drops).data := rfl
@[simp] theorem endCommand_xb (r : Response) (s : State) : (endCommand r s).xb = (Config.freeLeftovers s.drops).xb := rfl
@[simp] theorem endCommand_xn (r : Response) (s : State) : (endCommand r s).xn = (Config.freeLeftovers s.drops).xn := rfl
@[simp] theorem endCommand_pend (r : Response) (s : State) : (endCommand r s).pend = .none := rfl
@[simp] theorem endCommand_rst (r : Response) (s : State) : (endCommand r s).rst = s.rst := rfl
@[simp] theorem endCommand_rsps (r : Response) (s : State) : (endCommand r s).rsps = s.rsps ++ [r] := rfl
@[simp] theorem endCommand_trace (r : Response) (s : State) : (endCommand r s).trace = s.trace := rfl
@[simp] theorem endCommand_cs (r : Response) (s : State) : (endCommand r s).cs = s.cs := rfl
@[simp] theorem endCommand_transport (r : Response) (s : State) : (endCommand r s).transport = s.transport := rfl
@[simp] theorem endCommand_script (r : Response) (s : State) : (endCommand r s).script = s.script := rfl
@[simp] theorem endCommand_grain (r : Response) (s : State) : (endCommand r s).grain = s.grain := rfl
@[simp] theorem endCommand_tick (r : Response) (s : State) : (endCommand r s).tick = s.tick := rfl
@[simp] theorem endCommand_drops (r : Response) (s : State) : (endCommand r s).drops = s.drops + 1 := rfl
@[simp] theorem endCommand_dSel (r : Response) (s : State) : (endCommand r s).dSel = s.dSel := rfl
@[simp] theorem endCommand_mem (r : Response) (s : State) : (endCommand r s).mem = s.mem := rfl
@[simp] theorem endCommand_host (r : Response) (s : State) : (endCommand r s).host = s.host.receive r := rfl

/-! ### `assertRst` -/

@[simp] theorem assertRst_params (s : State) : (assertRst s).params = s.params := rfl
@[simp] theorem assertRst_curBank (s : State) : (assertRst s).curBank = 0 := rfl
@[simp] theorem assertRst_ph (s : State) : (assertRst s).ph = .idle := rfl
@[simp] theorem assertRst_cOp (s : State) : (assertRst s).cOp = (Config.freeLeftovers s.drops).op := rfl
@[simp] theorem assertRst_cBank (s : State) : (assertRst s).cBank = (Config.freeLeftovers s.drops).bank := rfl
@[simp] theorem assertRst_cAddr (s : State) : (assertRst s).cAddr = (Config.freeLeftovers s.drops).addr := rfl
@[simp] theorem assertRst_cData (s : State) : (assertRst s).cData = (Config.freeLeftovers s.drops).data := rfl
@[simp] theorem assertRst_xb (s : State) : (assertRst s).xb = (Config.freeLeftovers s.drops).xb := rfl
@[simp] theorem assertRst_xn (s : State) : (assertRst s).xn = (Config.freeLeftovers s.drops).xn := rfl
@[simp] theorem assertRst_pend (s : State) : (assertRst s).pend = .none := rfl
@[simp] theorem assertRst_rst (s : State) : (assertRst s).rst = false := rfl
@[simp] theorem assertRst_rsps (s : State) : (assertRst s).rsps = s.rsps := rfl
@[simp] theorem assertRst_trace (s : State) : (assertRst s).trace = s.trace := rfl
@[simp] theorem assertRst_cs (s : State) : (assertRst s).cs = s.cs := rfl
@[simp] theorem assertRst_transport (s : State) : (assertRst s).transport = s.transport := rfl
@[simp] theorem assertRst_script (s : State) : (assertRst s).script = s.script := rfl
@[simp] theorem assertRst_grain (s : State) : (assertRst s).grain = s.grain := rfl
@[simp] theorem assertRst_tick (s : State) : (assertRst s).tick = s.tick := rfl
@[simp] theorem assertRst_drops (s : State) : (assertRst s).drops = s.drops + 1 := rfl
@[simp] theorem assertRst_dSel (s : State) : (assertRst s).dSel = s.dSel := rfl
@[simp] theorem assertRst_mem (s : State) : (assertRst s).mem = s.mem := rfl
@[simp] theorem assertRst_host (s : State) : (assertRst s).host = s.host := rfl

/-! ### `State.taken` -/

@[simp] theorem taken_params (s : State) : (s.taken).params = s.params := rfl
@[simp] theorem taken_curBank (s : State) : (s.taken).curBank = s.curBank := rfl
@[simp] theorem taken_ph (s : State) : (s.taken).ph = s.ph := rfl
@[simp] theorem taken_cOp (s : State) : (s.taken).cOp = s.cOp := rfl
@[simp] theorem taken_cBank (s : State) : (s.taken).cBank = s.cBank := rfl
@[simp] theorem taken_cAddr (s : State) : (s.taken).cAddr = s.cAddr := rfl
@[simp] theorem taken_cData (s : State) : (s.taken).cData = s.cData := rfl
@[simp] theorem taken_xb (s : State) : (s.taken).xb = s.xb := rfl
@[simp] theorem taken_xn (s : State) : (s.taken).xn = s.xn := rfl
@[simp] theorem taken_pend (s : State) : (s.taken).pend = s.pend := rfl
@[simp] theorem taken_rst (s : State) : (s.taken).rst = s.rst := rfl
@[simp] theorem taken_rsps (s : State) : (s.taken).rsps = s.rsps := rfl
@[simp] theorem taken_trace (s : State) : (s.taken).trace = s.trace := rfl
@[simp] theorem taken_cs (s : State) : (s.taken).cs = s.cs := rfl
@[simp] theorem taken_transport (s : State) : (s.taken).transport = s.transport := rfl
@[simp] theorem taken_script (s : State) : (s.taken).script = s.script := rfl
@[simp] theorem taken_grain (s : State) : (s.taken).grain = s.grain := rfl
@[simp] theorem taken_tick (s : State) : (s.taken).tick = s.tick := rfl
@[simp] theorem taken_drops (s : State) : (s.taken).drops = s.drops := rfl
@[simp] theorem taken_dSel (s : State) : (s.taken).dSel = s.dSel := rfl
@[simp] theorem taken_mem (s : State) : (s.taken).mem = s.mem := rfl
@[simp] theorem taken_host (s : State) : (s.taken).host = { s.host with next := s.host.next + 1 } := rfl

/-! ### `State.present` -/

@[simp] theorem present_params (w : CmdWord) (s : State) : (s.present w).params = s.params := rfl
@[simp] theorem present_curBank (w : CmdWord) (s : State) : (s.present w).curBank = s.curBank := rfl
@[simp] theorem present_ph (w : CmdWord) (s : State) : (s.present w).ph = .idle := rfl
@[simp] theorem present_cOp (w : CmdWord) (s : State) : (s.present w).cOp = s.cOp := rfl
@[simp] theorem present_cBank (w : CmdWord) (s : State) : (s.present w).cBank = s.cBank := rfl
@[simp] theorem present_cAddr (w : CmdWord) (s : State) : (s.present w).cAddr = s.cAddr := rfl
@[simp] theorem present_cData (w : CmdWord) (s : State) : (s.present w).cData = s.cData := rfl
@[simp] theorem present_xb (w : CmdWord) (s : State) : (s.present w).xb = s.xb := rfl
@[simp] theorem present_xn (w : CmdWord) (s : State) : (s.present w).xn = s.xn := rfl
@[simp] theorem present_pend (w : CmdWord) (s : State) : (s.present w).pend = s.pend := rfl
@[simp] theorem present_rst (w : CmdWord) (s : State) : (s.present w).rst = false := rfl
@[simp] theorem present_rsps (w : CmdWord) (s : State) : (s.present w).rsps = s.rsps := rfl
@[simp] theorem present_trace (w : CmdWord) (s : State) : (s.present w).trace = s.trace := rfl
@[simp] theorem present_cs (w : CmdWord) (s : State) : (s.present w).cs = s.cs := rfl
@[simp] theorem present_transport (w : CmdWord) (s : State) : (s.present w).transport = s.transport := rfl
@[simp] theorem present_script (w : CmdWord) (s : State) : (s.present w).script = s.script := rfl
@[simp] theorem present_grain (w : CmdWord) (s : State) : (s.present w).grain = s.grain := rfl
@[simp] theorem present_tick (w : CmdWord) (s : State) : (s.present w).tick = s.tick := rfl
@[simp] theorem present_drops (w : CmdWord) (s : State) : (s.present w).drops = s.drops := rfl
@[simp] theorem present_dSel (w : CmdWord) (s : State) : (s.present w).dSel = s.dSel := rfl
@[simp] theorem present_mem (w : CmdWord) (s : State) : (s.present w).mem = s.mem := rfl
@[simp] theorem present_host (w : CmdWord) (s : State) : (s.present w).host = { s.host with prog := [w], next := 0, stopped := false } := rfl

/-! ### `State.devPut` -/

@[simp] theorem devPut_params (b : Bank) (a : Addr) (v : Byte) (s : State) : (s.devPut b a v).params = s.params := by
  unfold State.devPut; split <;> rfl
@[simp] theorem devPut_curBank (b : Bank) (a : Addr) (v : Byte) (s : State) : (s.devPut b a v).curBank = s.curBank := by
  unfold State.devPut; split <;> rfl
@[simp] theorem devPut_ph (b : Bank) (a : Addr) (v : Byte) (s : State) : (s.devPut b a v).ph = s.ph := by
  unfold State.devPut; split <;> rfl
@[simp] theorem devPut_cOp (b : Bank) (a : Addr) (v : Byte) (s : State) : (s.devPut b a v).cOp = s.cOp := by
  unfold State.devPut; split <;> rfl
@[simp] theorem devPut_cBank (b : Bank) (a : Addr) (v : Byte) (s : State) : (s.devPut b a v).cBank = s.cBank := by
  unfold State.devPut; split <;> rfl
@[simp] theorem devPut_cAddr (b : Bank) (a : Addr) (v : Byte) (s : State) : (s.devPut b a v).cAddr = s.cAddr := by
  unfold State.devPut; split <;> rfl
@[simp] theorem devPut_cData (b : Bank) (a : Addr) (v : Byte) (s : State) : (s.devPut b a v).cData = s.cData := by
  unfold State.devPut; split <;> rfl
@[simp] theorem devPut_xb (b : Bank) (a : Addr) (v : Byte) (s : State) : (s.devPut b a v).xb = s.xb := by
  unfold State.devPut; split <;> rfl
@[simp] theorem devPut_xn (b : Bank) (a : Addr) (v : Byte) (s : State) : (s.devPut b a v).xn = s.xn := by
  unfold State.devPut; split <;> rfl
@[simp] theorem devPut_pend (b : Bank) (a : Addr) (v : Byte) (s : State) : (s.devPut b a v).pend = s.pend := by
  unfold State.devPut; split <;> rfl
@[simp] theorem devPut_rst (b : Bank) (a : Addr) (v : Byte) (s : State) : (s.devPut b a v).rst = s.rst := by
  unfold State.devPut; split <;> rfl
@[simp] theorem devPut_rsps (b : Bank) (a : Addr) (v : Byte) (s : State) : (s.devPut b a v).rsps = s.rsps := by
  unfold State.devPut; split <;> rfl
@[simp] theorem devPut_trace (b : Bank) (a : Addr) (v : Byte) (s : State) : (s.devPut b a v).trace = s.trace := by
  unfold State.devPut; split <;> rfl
@[simp] theorem devPut_cs (b : Bank) (a : Addr) (v : Byte) (s : State) : (s.devPut b a v).cs = s.cs := by
  unfold State.devPut; split <;> rfl
@[simp] theorem devPut_transport (b : Bank) (a : Addr) (v : Byte) (s : State) : (s.devPut b a v).transport = s.transport := by
  unfold State.devPut; split <;> rfl
@[simp] theorem devPut_script (b : Bank) (a : Addr) (v : Byte) (s : State) : (s.devPut b a v).script = s.script := by
  unfold State.devPut; split <;> rfl
@[simp] theorem devPut_grain (b : Bank) (a : Addr) (v : Byte) (s : State) : (s.devPut b a v).grain = s.grain := by
  unfold State.devPut; split <;> rfl
@[simp] theorem devPut_tick (b : Bank) (a : Addr) (v : Byte) (s : State) : (s.devPut b a v).tick = s.tick := by
  unfold State.devPut; split <;> rfl
@[simp] theorem devPut_drops (b : Bank) (a : Addr) (v : Byte) (s : State) : (s.devPut b a v).drops = s.drops := by
  unfold State.devPut; split <;> rfl
@[simp] theorem devPut_host (b : Bank) (a : Addr) (v : Byte) (s : State) : (s.devPut b a v).host = s.host := by
  unfold State.devPut; split <;> rfl

/-! ### `State.devStore` -/

@[simp] theorem devStore_params (a : Addr) (v : Byte) (s : State) : (s.devStore a v).params = s.params := devPut_params _ a v s
@[simp] theorem devStore_curBank (a : Addr) (v : Byte) (s : State) : (s.devStore a v).curBank = s.curBank := devPut_curBank _ a v s
@[simp] theorem devStore_ph (a : Addr) (v : Byte) (s : State) : (s.devStore a v).ph = s.ph := devPut_ph _ a v s
@[simp] theorem devStore_cOp (a : Addr) (v : Byte) (s : State) : (s.devStore a v).cOp = s.cOp := devPut_cOp _ a v s
@[simp] theorem devStore_cBank (a : Addr) (v : Byte) (s : State) : (s.devStore a v).cBank = s.cBank := devPut_cBank _ a v s
@[simp] theorem devStore_cAddr (a : Addr) (v : Byte) (s : State) : (s.devStore a v).cAddr = s.cAddr := devPut_cAddr _ a v s
@[simp] theorem devStore_cData (a : Addr) (v : Byte) (s : State) : (s.devStore a v).cData = s.cData := devPut_cData _ a v s
@[simp] theorem devStore_xb (a : Addr) (v : Byte) (s : State) : (s.devStore a v).xb = s.xb := devPut_xb _ a v s
@[simp] theorem devStore_xn (a : Addr) (v : Byte) (s : State) : (s.devStore a v).xn = s.xn := devPut_xn _ a v s
@[simp] theorem devStore_pend (a : Addr) (v : Byte) (s : State) : (s.devStore a v).pend = s.pend := devPut_pend _ a v s
@[simp] theorem devStore_rst (a : Addr) (v : Byte) (s : State) : (s.devStore a v).rst = s.rst := devPut_rst _ a v s
@[simp] theorem devStore_rsps (a : Addr) (v : Byte) (s : State) : (s.devStore a v).rsps = s.rsps := devPut_rsps _ a v s
@[simp] theorem devStore_trace (a : Addr) (v : Byte) (s : State) : (s.devStore a v).trace = s.trace := devPut_trace _ a v s
@[simp] theorem devStore_cs (a : Addr) (v : Byte) (s : State) : (s.devStore a v).cs = s.cs := devPut_cs _ a v s
@[simp] theorem devStore_transport (a : Addr) (v : Byte) (s : State) : (s.devStore a v).transport = s.transport := devPut_transport _ a v s
@[simp] theorem devStore_script (a : Addr) (v : Byte) (s : State) : (s.devStore a v).script = s.script := devPut_script _ a v s
@[simp] theorem devStore_grain (a : Addr) (v : Byte) (s : State) : (s.devStore a v).grain = s.grain := devPut_grain _ a v s
@[simp] theorem devStore_tick (a : Addr) (v : Byte) (s : State) : (s.devStore a v).tick = s.tick := devPut_tick _ a v s
@[simp] theorem devStore_drops (a : Addr) (v : Byte) (s : State) : (s.devStore a v).drops = s.drops := devPut_drops _ a v s
@[simp] theorem devStore_host (a : Addr) (v : Byte) (s : State) : (s.devStore a v).host = s.host := devPut_host _ a v s

/-! ### `State.devWriteOk` -/

@[simp] theorem devWriteOk_params (x v : Byte) (s : State) : (s.devWriteOk x v).params = s.params := by
  unfold State.devWriteOk; (repeat' split) <;> simp
@[simp] theorem devWriteOk_curBank (x v : Byte) (s : State) : (s.devWriteOk x v).curBank = s.curBank := by
  unfold State.devWriteOk; (repeat' split) <;> simp
@[simp] theorem devWriteOk_ph (x v : Byte) (s : State) : (s.devWriteOk x v).ph = s.ph := by
  unfold State.devWriteOk; (repeat' split) <;> simp
@[simp] theorem devWriteOk_cOp (x v : Byte) (s : State) : (s.devWriteOk x v).cOp = s.cOp := by
  unfold State.devWriteOk; (repeat' split) <;> simp
@[simp] theorem devWriteOk_cBank (x v : Byte) (s : State) : (s.devWriteOk x v).cBank = s.cBank := by
  unfold State.devWriteOk; (repeat' split) <;> simp
@[simp] theorem devWriteOk_cAddr (x v : Byte) (s : State) : (s.devWriteOk x v).cAddr = s.cAddr := by
  unfold State.devWriteOk; (repeat' split) <;> simp
@[simp] theorem devWriteOk_cData (x v : Byte) (s : State) : (s.devWriteOk x v).cData = s.cData := by
  unfold State.devWriteOk; (repeat' split) <;> simp
@[simp] theorem devWriteOk_xb (x v : Byte) (s : State) : (s.devWriteOk x v).xb = s.xb := by
  unfold State.devWriteOk; (repeat' split) <;> simp
@[simp] theorem devWriteOk_xn (x v : Byte) (s : State) : (s.devWriteOk x v).xn = s.xn := by
  unfold State.devWriteOk; (repeat' split) <;> simp
@[simp] theorem devWriteOk_pend (x v : Byte) (s : State) : (s.devWriteOk x v).pend = s.pend := by
  unfold State.devWriteOk; (repeat' split) <;> simp
@[simp] theorem devWriteOk_rst (x v : Byte) (s : State) : (s.devWriteOk x v).rst = s.rst := by
  unfold State.devWriteOk; (repeat' split) <;> simp
@[simp] theorem devWriteOk_rsps (x v : Byte) (s : State) : (s.devWriteOk x v).rsps = s.rsps := by
  unfold State.devWriteOk; (repeat' split) <;> simp
@[simp] theorem devWriteOk_trace (x v : Byte) (s : State) : (s.devWriteOk x v).trace = s.trace := by
  unfold State.devWriteOk; (repeat' split) <;> simp
@[simp] theorem devWriteOk_cs (x v : Byte) (s : State) : (s.devWriteOk x v).cs = s.cs := by
  unfold State.devWriteOk; (repeat' split) <;> simp
@[simp] theorem devWriteOk_transport (x v : Byte) (s : State) : (s.devWriteOk x v).transport = s.transport := by
  unfold State.devWriteOk; (repeat' split) <;> simp
@[simp] theorem devWriteOk_script (x v : Byte) (s : State) : (s.devWriteOk x v).script = s.script := by
  unfold State.devWriteOk; (repeat' split) <;> simp
@[simp] theorem devWriteOk_grain (x v : Byte) (s : State) : (s.devWriteOk x v).grain = s.grain := by
  unfold State.devWriteOk; (repeat' split) <;> simp
@[simp] theorem devWriteOk_tick (x v : Byte) (s : State) : (s.devWriteOk x v).tick = s.tick := by
  unfold State.devWriteOk; (repeat' split) <;> simp
@[simp] theorem devWriteOk_drops (x v : Byte) (s : State) : (s.devWriteOk x v).drops = s.drops := by
  unfold State.devWriteOk; (repeat' split) <;> simp
@[simp] theorem devWriteOk_host (x v : Byte) (s : State) : (s.devWriteOk x v).host = s.host := by
  unfold State.devWriteOk; (repeat' split) <;> simp

/-! ### `State.devDrift` -/

/-- Whatever the device holds after an answer, nothing else has changed. -/
theorem devDrift_eq (s : State) : ∃ d m, s.devDrift = { s with dSel := d, mem := m } := by
  have h : ∀ (l : List DevPut) (t : State),
      ∃ d m, l.foldl (fun t p => t.devPut p.bank p.addr p.byte) t = { t with dSel := d, mem := m } := by
    intro l
    induction l with
    | nil => exact fun t => ⟨t.dSel, t.mem, rfl⟩
    | cons p l ih =>
      intro t
      obtain ⟨d, m, e⟩ := ih (t.devPut p.bank p.addr p.byte)
      refine ⟨d, m, e.trans ?_⟩
      unfold State.devPut
      split <;> rfl
  unfold State.devDrift
  split
  · exact ⟨s.dSel, s.mem, rfl⟩
  · exact h _ _

/-- The mock does not drift (R34). -/
theorem devDrift_mock {s : State} (h : s.transport = .mock) : s.devDrift = s := by
  unfold State.devDrift; rw [h]

@[simp] theorem devDrift_params (s : State) : (s.devDrift).params = s.params := by
  obtain ⟨d, m, h⟩ := devDrift_eq s; rw [h]
@[simp] theorem devDrift_curBank (s : State) : (s.devDrift).curBank = s.curBank := by
  obtain ⟨d, m, h⟩ := devDrift_eq s; rw [h]
@[simp] theorem devDrift_ph (s : State) : (s.devDrift).ph = s.ph := by
  obtain ⟨d, m, h⟩ := devDrift_eq s; rw [h]
@[simp] theorem devDrift_cOp (s : State) : (s.devDrift).cOp = s.cOp := by
  obtain ⟨d, m, h⟩ := devDrift_eq s; rw [h]
@[simp] theorem devDrift_cBank (s : State) : (s.devDrift).cBank = s.cBank := by
  obtain ⟨d, m, h⟩ := devDrift_eq s; rw [h]
@[simp] theorem devDrift_cAddr (s : State) : (s.devDrift).cAddr = s.cAddr := by
  obtain ⟨d, m, h⟩ := devDrift_eq s; rw [h]
@[simp] theorem devDrift_cData (s : State) : (s.devDrift).cData = s.cData := by
  obtain ⟨d, m, h⟩ := devDrift_eq s; rw [h]
@[simp] theorem devDrift_xb (s : State) : (s.devDrift).xb = s.xb := by
  obtain ⟨d, m, h⟩ := devDrift_eq s; rw [h]
@[simp] theorem devDrift_xn (s : State) : (s.devDrift).xn = s.xn := by
  obtain ⟨d, m, h⟩ := devDrift_eq s; rw [h]
@[simp] theorem devDrift_pend (s : State) : (s.devDrift).pend = s.pend := by
  obtain ⟨d, m, h⟩ := devDrift_eq s; rw [h]
@[simp] theorem devDrift_rst (s : State) : (s.devDrift).rst = s.rst := by
  obtain ⟨d, m, h⟩ := devDrift_eq s; rw [h]
@[simp] theorem devDrift_rsps (s : State) : (s.devDrift).rsps = s.rsps := by
  obtain ⟨d, m, h⟩ := devDrift_eq s; rw [h]
@[simp] theorem devDrift_trace (s : State) : (s.devDrift).trace = s.trace := by
  obtain ⟨d, m, h⟩ := devDrift_eq s; rw [h]
@[simp] theorem devDrift_cs (s : State) : (s.devDrift).cs = s.cs := by
  obtain ⟨d, m, h⟩ := devDrift_eq s; rw [h]
@[simp] theorem devDrift_transport (s : State) : (s.devDrift).transport = s.transport := by
  obtain ⟨d, m, h⟩ := devDrift_eq s; rw [h]
@[simp] theorem devDrift_script (s : State) : (s.devDrift).script = s.script := by
  obtain ⟨d, m, h⟩ := devDrift_eq s; rw [h]
@[simp] theorem devDrift_grain (s : State) : (s.devDrift).grain = s.grain := by
  obtain ⟨d, m, h⟩ := devDrift_eq s; rw [h]
@[simp] theorem devDrift_tick (s : State) : (s.devDrift).tick = s.tick := by
  obtain ⟨d, m, h⟩ := devDrift_eq s; rw [h]
@[simp] theorem devDrift_drops (s : State) : (s.devDrift).drops = s.drops := by
  obtain ⟨d, m, h⟩ := devDrift_eq s; rw [h]
@[simp] theorem devDrift_host (s : State) : (s.devDrift).host = s.host := by
  obtain ⟨d, m, h⟩ := devDrift_eq s; rw [h]

/-! ### `State.spent` -/

@[simp] theorem spent_params (s : State) : (s.spent).params = s.params := devDrift_params s
@[simp] theorem spent_curBank (s : State) : (s.spent).curBank = s.curBank := devDrift_curBank s
@[simp] theorem spent_ph (s : State) : (s.spent).ph = s.ph := devDrift_ph s
@[simp] theorem spent_cOp (s : State) : (s.spent).cOp = s.cOp := devDrift_cOp s
@[simp] theorem spent_cBank (s : State) : (s.spent).cBank = s.cBank := devDrift_cBank s
@[simp] theorem spent_cAddr (s : State) : (s.spent).cAddr = s.cAddr := devDrift_cAddr s
@[simp] theorem spent_cData (s : State) : (s.spent).cData = s.cData := devDrift_cData s
@[simp] theorem spent_xb (s : State) : (s.spent).xb = s.xb := devDrift_xb s
@[simp] theorem spent_xn (s : State) : (s.spent).xn = s.xn := devDrift_xn s
@[simp] theorem spent_pend (s : State) : (s.spent).pend = s.pend := devDrift_pend s
@[simp] theorem spent_rst (s : State) : (s.spent).rst = s.rst := devDrift_rst s
@[simp] theorem spent_rsps (s : State) : (s.spent).rsps = s.rsps := devDrift_rsps s
@[simp] theorem spent_trace (s : State) : (s.spent).trace = s.trace := devDrift_trace s
@[simp] theorem spent_cs (s : State) : (s.spent).cs = s.cs := devDrift_cs s
@[simp] theorem spent_transport (s : State) : (s.spent).transport = s.transport := devDrift_transport s
@[simp] theorem spent_script (s : State) : (s.spent).script = s.script.tail := congrArg List.tail (devDrift_script s)
@[simp] theorem spent_grain (s : State) : (s.spent).grain = s.grain := devDrift_grain s
@[simp] theorem spent_tick (s : State) : (s.spent).tick = s.tick + 1 := congrArg (· + 1) (devDrift_tick s)
@[simp] theorem spent_drops (s : State) : (s.spent).drops = s.drops := devDrift_drops s
@[simp] theorem spent_host (s : State) : (s.spent).host = s.host := devDrift_host s
/-- On the mock an answer changes nothing of the device by itself. -/
@[simp] theorem spent_dSel {s : State} (h : s.transport = .mock) : s.spent.dSel = s.dSel :=
  (congrArg State.dSel (devDrift_mock h) : s.devDrift.dSel = s.dSel)
@[simp] theorem spent_mem {s : State} (h : s.transport = .mock) : s.spent.mem = s.mem :=
  (congrArg State.mem (devDrift_mock h) : s.devDrift.mem = s.mem)

end Sys2Proof.Laws
end

