-- ==== Sys2Proof/Laws/Bus.lean ====
section
/-! SUPPORT. The transport's answers and the device: how the answers to come move on as invocations are answered, and
what a store does to the bytes of the device. -/

namespace Sys2Proof.Laws

open Sys2Proof.Machine

/-! ### The answers to come -/

theorem answer_eq (s : State) : s.answer = s.answerAt 0 := by
  unfold State.answer State.answerAt
  cases s.script with
  | nil => cases s.transport <;> rfl
  | cons a l => rfl

/-- The answers to come depend on three fields only. -/
theorem answerAt_congr {s t : State} (h1 : t.script = s.script) (h2 : t.transport = s.transport)
    (h3 : t.tick = s.tick) (k : Nat) : t.answerAt k = s.answerAt k := by
  unfold State.answerAt; rw [h1, h2, h3]

@[simp] theorem setPh_answerAt (p : Phase) (s : State) (k : Nat) : (s.setPh p).answerAt k = s.answerAt k := rfl
@[simp] theorem setPend_answerAt (q : Pend) (s : State) (k : Nat) : (s.setPend q).answerAt k = s.answerAt k := rfl
@[simp] theorem setFrame_answerAt (x : XBuf) (n : FrameLen) (s : State) (k : Nat) :
    (s.setFrame x n).answerAt k = s.answerAt k := rfl
@[simp] theorem setXb_answerAt (x : XBuf) (s : State) (k : Nat) : (s.setXb x).answerAt k = s.answerAt k := rfl
@[simp] theorem setCurBank_answerAt (b : Bank) (s : State) (k : Nat) :
    (s.setCurBank b).answerAt k = s.answerAt k := rfl
@[simp] theorem setCs_answerAt (l : Level) (s : State) (k : Nat) : (s.setCs l).answerAt k = s.answerAt k := rfl
@[simp] theorem log_answerAt (e : Event) (s : State) (k : Nat) : (s.log e).answerAt k = s.answerAt k := rfl
@[simp] theorem latch_answerAt (i : Instr) (s : State) (k : Nat) : (latch i s).answerAt k = s.answerAt k := rfl
@[simp] theorem dropLatches_answerAt (s : State) (k : Nat) : s.dropLatches.answerAt k = s.answerAt k := rfl
@[simp] theorem send_answerAt (r : Response) (s : State) (k : Nat) : (s.send r).answerAt k = s.answerAt k := rfl
@[simp] theorem endCommand_answerAt (r : Response) (s : State) (k : Nat) :
    (endCommand r s).answerAt k = s.answerAt k := rfl
@[simp] theorem assertRst_answerAt (s : State) (k : Nat) : (assertRst s).answerAt k = s.answerAt k := rfl
@[simp] theorem taken_answerAt (s : State) (k : Nat) : s.taken.answerAt k = s.answerAt k := rfl
@[simp] theorem devWriteOk_answerAt (x v : Byte) (s : State) (k : Nat) :
    (s.devWriteOk x v).answerAt k = s.answerAt k := answerAt_congr (by simp) (by simp) (by simp) k

/-- One answer used up: the next ones come one place earlier. -/
@[simp] theorem spent_answerAt (s : State) (k : Nat) : s.spent.answerAt k = s.answerAt (k + 1) := by
  unfold State.answerAt
  simp only [spent_script, spent_transport, spent_tick, List.getElem?_tail]
  rw [show s.tick + 1 + k = s.tick + (k + 1) by omega]

theorem AllOk.mono {s : State} {n m : Nat} (h : s.AllOk n) (hm : m ≤ n) : s.AllOk m :=
  fun k hk => h k (Nat.lt_of_lt_of_le hk hm)

theorem AllOk.answered {s : State} {n : Nat} (h : s.AllOk n) : s.Answered n :=
  fun k hk => by rw [h k hk]; decide

/-- The answers that are left after `m` invocations. -/
theorem AllOk.shift {s t : State} {n m : Nat} (h : s.AllOk (m + n))
    (ht : ∀ k, t.answerAt k = s.answerAt (k + m)) : t.AllOk n :=
  fun k hk => by rw [ht]; exact h _ (by omega)

theorem Answered.shift {s t : State} {n m : Nat} (h : s.Answered (m + n))
    (ht : ∀ k, t.answerAt k = s.answerAt (k + m)) : t.Answered n :=
  fun k hk => by rw [ht]; exact h _ (by omega)

theorem Answered.mono {s : State} {n m : Nat} (h : s.Answered n) (hm : m ≤ n) : s.Answered m :=
  fun k hk => h k (Nat.lt_of_lt_of_le hk hm)

/-! ### Bytes of the device -/

/-- The bytes of the device depend on two fields only. -/
theorem devByte_congr {s t : State} (h1 : t.dSel = s.dSel) (h2 : t.mem = s.mem) (b : Bank) (a : Addr) :
    t.devByte b a = s.devByte b a := by
  unfold State.devByte; rw [h1, h2]

theorem SameDevice.of_eq {s t : State} (h1 : t.dSel = s.dSel) (h2 : t.mem = s.mem) : SameDevice s t :=
  devByte_congr h1 h2

theorem dBank_congr {s t : State} (h1 : t.dSel = s.dSel) (h2 : t.params = s.params) : t.dBank = s.dBank := by
  unfold State.dBank; rw [h1, h2]

@[simp] theorem devByte_sel (s : State) (b : Bank) : s.devByte b bankSelAddr = s.dSel := if_pos rfl

theorem devPut_sel (b : Bank) (v : Byte) (s : State) : s.devPut b bankSelAddr v = { s with dSel := v } := if_pos rfl

theorem devPut_reg {a : Addr} (h : a ≠ bankSelAddr) (b : Bank) (v : Byte) (s : State) :
    s.devPut b a v = { s with mem := Memory.write s.mem (regKey b a) v } := if_neg h

theorem devStore_sel (v : Byte) (s : State) : s.devStore bankSelAddr v = { s with dSel := v } := devPut_sel _ v s

theorem devStore_reg {a : Addr} (h : a ≠ bankSelAddr) (v : Byte) (s : State) :
    s.devStore a v = { s with mem := Memory.write s.mem (regKey s.dBank a) v } := devPut_reg h _ v s

/-- A store depends on the device and the parameters only. -/
theorem devStore_congr {s t : State} (h1 : t.dSel = s.dSel) (h2 : t.mem = s.mem) (h3 : t.params = s.params)
    (a : Addr) (v : Byte) :
    (t.devStore a v).dSel = (s.devStore a v).dSel ∧ (t.devStore a v).mem = (s.devStore a v).mem := by
  by_cases h : a = bankSelAddr
  · subst h; simp [devStore_sel, h2]
  · simp [devStore_reg h, h1, h2, dBank_congr h1 h3]

/-- A byte stored is the byte at its address. -/
theorem devStore_same (a : Addr) (v : Byte) (s : State) : (s.devStore a v).devByte s.dBank a = v := by
  by_cases h : a = bankSelAddr
  · subst h; rw [devStore_sel]; simp
  · rw [devStore_reg h]; simp [State.devByte, h]

/-- A store leaves every other byte (R54: the names of 0x7F are one byte). -/
theorem devStore_other (a : Addr) (v : Byte) (s : State) : SameDeviceBut s.dBank a s (s.devStore a v) := by
  intro b' a' hk
  by_cases h : a = bankSelAddr
  · subst h
    have ha' : a' ≠ bankSelAddr := fun e => hk (by subst e; rfl)
    simp [devStore_sel, State.devByte, ha']
  · rw [devStore_reg h]
    by_cases ha' : a' = bankSelAddr
    · subst ha'; simp
    · simp [State.devByte, ha', read_write_other hk]

/-- The write frame `[a, v]` reaches address `a`. -/
@[simp] theorem isReadFrame_writeAddrByte (a : Addr) : isReadFrame (writeAddrByte a) = false := by
  simp [isReadFrame, writeAddrByte]

@[simp] theorem isReadFrame_readAddrByte (a : Addr) : isReadFrame (readAddrByte a) = true := by
  simp [isReadFrame, readAddrByte, readBit]

@[simp] theorem frameAddr_writeAddrByte (a : Addr) : frameAddr (writeAddrByte a) = a := by
  unfold frameAddr writeAddrByte; revert a; decide

@[simp] theorem frameAddr_readAddrByte (a : Addr) : frameAddr (readAddrByte a) = a := by
  unfold frameAddr readAddrByte readBit; revert a; decide

/-! ### The answer of the data primitive -/

/-- What the data primitive of a transaction that starts now answers, if its assertion is answered ok: the second answer
from now, but that a block read to which the mock gives no meaning gets any answer in the place of ok (R71). -/
def dataAnswerAt (duplex : Bool) (s : State) : Answer :=
  match s.answerAt 1 with
  | .ok => if duplex && s.pastMock then Config.freeAnswer (s.tick + 1) else .ok
  | .fail e => .fail e
  | .silent => .silent

/-- An ok is the transport's own. -/
theorem answerAt_of_dataAnswerAt_ok {d : Bool} {s : State} (h : dataAnswerAt d s = .ok) : s.answerAt 1 = .ok := by
  unfold dataAnswerAt at h
  cases ha : s.answerAt 1 <;> simp_all

/-- A failure and a silence of the transport pass unchanged. -/
theorem dataAnswerAt_of_ne_ok {d : Bool} {s : State} (h : s.answerAt 1 ≠ .ok) : dataAnswerAt d s = s.answerAt 1 := by
  unfold dataAnswerAt
  cases ha : s.answerAt 1 <;> simp_all

/-- A frame that the mock gives a meaning, and every frame to the unconstrained transport, gets the answer it gets. -/
theorem dataAnswerAt_of_served {d : Bool} {s : State} (h : (d && s.pastMock) = false) :
    dataAnswerAt d s = s.answerAt 1 := by
  unfold dataAnswerAt
  rw [h]
  cases ha : s.answerAt 1 <;> simp

/-- A write is no block read. -/
@[simp] theorem dataAnswerAt_write (s : State) : dataAnswerAt false s = s.answerAt 1 :=
  dataAnswerAt_of_served (by simp)

theorem pastMock_congr {s t : State} (h1 : t.transport = s.transport) (h2 : t.xb = s.xb) (h3 : t.xn = s.xn) :
    t.pastMock = s.pastMock := by
  unfold State.pastMock; rw [h1, h2, h3]

/-- The frame of a read is past the end of the mock exactly for a block read past 0x7F. -/
theorem pastMock_loadRead (a : Addr) (n : FrameLen) (x : XBuf) (s : State) :
    (s.setFrame (loadRead a n x) n).pastMock =
      (s.transport == .mock && n == .seven && decide (0x7F < a.toNat + 5)) := by
  have h0 : (loadRead a n x).b0 = readAddrByte a := by cases n <;> rfl
  simp [State.pastMock, h0]

/-! ### Stores -/

/-- A read frame stores nothing. -/
theorem devWriteOk_read {x : Byte} (h : isReadFrame x = true) (v : Byte) (s : State) : s.devWriteOk x v = s := by
  unfold State.devWriteOk
  rw [if_pos h]
  split <;> rfl

/-- What a write frame that is answered ok stores on the mock, and where (R64). -/
theorem devWriteOk_mock {s : State} (h : s.transport = .mock) (a : Addr) (v : Byte) :
    s.devWriteOk (writeAddrByte a) v = s.devStore a v := by
  unfold State.devWriteOk
  rw [h]
  simp

/-- A byte put into the device keeps the canonical form of the register file. -/
theorem devPut_wf {s : State} (h : Memory.wf s.mem = true) (b : Bank) (a : Addr) (v : Byte) :
    Memory.wf (s.devPut b a v).mem = true := by
  by_cases ha : a = bankSelAddr
  · subst ha; rw [devPut_sel]; exact h
  · rw [devPut_reg ha]; exact wf_write h (isRegKey_regKey _ ha)

theorem devStore_wf {s : State} (h : Memory.wf s.mem = true) (a : Addr) (v : Byte) :
    Memory.wf (s.devStore a v).mem = true := devPut_wf h _ a v

/-- The drift of the device keeps the canonical form. -/
theorem devDrift_wf {s : State} (h : Memory.wf s.mem = true) : Memory.wf s.devDrift.mem = true := by
  have key : ∀ (l : List DevPut) (t : State), Memory.wf t.mem = true →
      Memory.wf (l.foldl (fun t p => t.devPut p.bank p.addr p.byte) t).mem = true := by
    intro l
    induction l with
    | nil => exact fun _ h => h
    | cons p l ih => exact fun t h => ih _ (devPut_wf h _ _ _)
  unfold State.devDrift
  split
  · exact h
  · exact key _ _ h

theorem spent_wf {s : State} (h : Memory.wf s.mem = true) : Memory.wf s.spent.mem = true := devDrift_wf h

theorem devWriteOk_wf {s : State} (h : Memory.wf s.mem = true) (x v : Byte) :
    Memory.wf (s.devWriteOk x v).mem = true := by
  unfold State.devWriteOk
  split
  · exact h
  · split
    · exact h
    · exact devStore_wf h _ _

end Sys2Proof.Laws
end

