-- ==== Sys2Proof/Laws/Xact.lean ====
section
/-! SUPPORT. The transaction XACT (R61): the state after each primitive, and one lemma (`xact_run`) that says
everything a transaction can do, from the answers it gets. Later proofs take `xact_run` apart and do not unfold
`xact`. -/

namespace Sys2Proof.Laws

open Sys2Proof.Machine

/-! ### The state after each primitive -/

/-- After `cs_low` answered ok. -/
def lowOk (s : State) : State := ((s.setCs .low).log .low).spent

/-- After `cs_low` failed. -/
def lowFail (e : Nat) (s : State) : State := ((s.setCs (Config.freeLevel s.tick)).log (.lowErr ⟨e⟩)).spent

/-- After `cs_high` answered ok. -/
def highOk (s : State) : State := ((s.setCs .high).log .high).spent

/-- After `cs_high` failed. -/
def highFail (e : Nat) (s : State) : State := ((s.setCs (Config.freeLevel s.tick)).log (.highErr ⟨e⟩)).spent

/-- After the data primitive answered ok. -/
def dataOk (duplex : Bool) (s : State) : State :=
  if duplex then
    (((s.devWriteOk s.xb.b0 s.xb.b1).setXb (takeResponse s.response s.xn s.xb)).log
      (.transfer (s.xb.frame s.xn) (s.response.frame s.xn))).spent
  else ((s.devWriteOk s.xb.b0 s.xb.b1).log (.write [s.xb.b0, s.xb.b1])).spent

/-- After the data primitive failed. -/
def dataFail (duplex : Bool) (e : Nat) (s : State) : State :=
  if duplex then
    ((s.setXb (Config.freeBuffer s.tick)).log (.transferErr (s.xb.frame s.xn) ⟨e⟩)).spent
  else (s.log (.writeErr [s.xb.b0, s.xb.b1] ⟨e⟩)).spent

theorem csLow_ok {s : State} (h : s.answerAt 0 = .ok) : csLow s = .done none (lowOk s) := by
  rw [← answer_eq] at h; unfold csLow; rw [h]; rfl
theorem csLow_fail {s : State} {e : Nat} (h : s.answerAt 0 = .fail e) :
    csLow s = .done (some ⟨e⟩) (lowFail e s) := by
  rw [← answer_eq] at h; unfold csLow; rw [h]; rfl
theorem csLow_silent {s : State} (h : s.answerAt 0 = .silent) : csLow s = .waiting s := by
  rw [← answer_eq] at h; unfold csLow; rw [h]
theorem csHigh_ok {s : State} (h : s.answerAt 0 = .ok) : csHigh s = .done none (highOk s) := by
  rw [← answer_eq] at h; unfold csHigh; rw [h]; rfl
theorem csHigh_fail {s : State} {e : Nat} (h : s.answerAt 0 = .fail e) :
    csHigh s = .done (some ⟨e⟩) (highFail e s) := by
  rw [← answer_eq] at h; unfold csHigh; rw [h]; rfl
theorem csHigh_silent {s : State} (h : s.answerAt 0 = .silent) : csHigh s = .waiting s := by
  rw [← answer_eq] at h; unfold csHigh; rw [h]
/-- What the data primitive answers now. -/
def dataAnswer (duplex : Bool) (s : State) : Answer := if duplex then s.transferAnswer else s.answer

theorem dataPhase_ok {s : State} (d : Bool) (h : dataAnswer d s = .ok) : dataPhase d s = .done none (dataOk d s) := by
  cases d <;> simp only [dataAnswer, if_true, if_false, Bool.false_eq_true] at h <;>
    simp [dataPhase, busTransfer, busWrite, h, dataOk]
theorem dataPhase_fail {s : State} {e : Nat} (d : Bool) (h : dataAnswer d s = .fail e) :
    dataPhase d s = .done (some ⟨e⟩) (dataFail d e s) := by
  cases d <;> simp only [dataAnswer, if_true, if_false, Bool.false_eq_true] at h <;>
    simp [dataPhase, busTransfer, busWrite, h, dataFail]
theorem dataPhase_silent {s : State} (d : Bool) (h : dataAnswer d s = .silent) : dataPhase d s = .waiting s := by
  cases d <;> simp only [dataAnswer, if_true, if_false, Bool.false_eq_true] at h <;>
    simp [dataPhase, busTransfer, busWrite, h]

@[simp] theorem lowOk_answerAt (s : State) (k : Nat) : (lowOk s).answerAt k = s.answerAt (k + 1) := by simp [lowOk]
@[simp] theorem lowFail_answerAt (e : Nat) (s : State) (k : Nat) :
    (lowFail e s).answerAt k = s.answerAt (k + 1) := by simp [lowFail]
@[simp] theorem highOk_answerAt (s : State) (k : Nat) : (highOk s).answerAt k = s.answerAt (k + 1) := by simp [highOk]
@[simp] theorem highFail_answerAt (e : Nat) (s : State) (k : Nat) :
    (highFail e s).answerAt k = s.answerAt (k + 1) := by simp [highFail]
@[simp] theorem dataOk_answerAt (d : Bool) (s : State) (k : Nat) :
    (dataOk d s).answerAt k = s.answerAt (k + 1) := by cases d <;> simp [dataOk]
@[simp] theorem dataFail_answerAt (d : Bool) (e : Nat) (s : State) (k : Nat) :
    (dataFail d e s).answerAt k = s.answerAt (k + 1) := by cases d <;> simp [dataFail]

/-! ### The states a transaction passes through -/

/-- The assertion has been answered ok. -/
def asserted (leg : Leg) (s : State) : State := (lowOk (s.setPh leg.low)).setPh leg.data

@[simp] theorem asserted_answerAt (leg : Leg) (s : State) (k : Nat) :
    (asserted leg s).answerAt k = s.answerAt (k + 1) := by simp [asserted]

/-- The assertion has failed. -/
def assertErr (leg : Leg) (e : Nat) (s : State) : State := lowFail e (s.setPh leg.low)

/-- The assertion has failed and the deassertion is about to be attempted. -/
def assertErrHigh (leg : Leg) (e : Nat) (s : State) : State :=
  ((assertErr leg e s).setPend (.pin ⟨e⟩)).setPh leg.high

/-- The data primitive has been answered ok and the deassertion is about to be attempted. -/
def exchanged (leg : Leg) (d : Bool) (s : State) : State :=
  ((dataOk d (asserted leg s)).setPend .none).setPh leg.high

/-- The data primitive has failed and the deassertion is about to be attempted. -/
def exchangeErr (leg : Leg) (d : Bool) (c : Nat) (s : State) : State :=
  ((dataFail d c (asserted leg s)).setPend (.comm ⟨c⟩)).setPh leg.high

/-- After the assertion the data primitive answers as `dataAnswerAt` says. -/
theorem dataAnswer_asserted (leg : Leg) (d : Bool) (s : State) :
    dataAnswer d (asserted leg s) = dataAnswerAt d s := by
  have ha : (asserted leg s).answer = s.answerAt 1 := by rw [answer_eq]; simp [asserted]
  have hp : (asserted leg s).pastMock = s.pastMock :=
    pastMock_congr (by simp [asserted, lowOk]) (by simp [asserted, lowOk]) (by simp [asserted, lowOk])
  have ht : (asserted leg s).tick = s.tick + 1 := by simp [asserted, lowOk]
  unfold dataAnswer dataAnswerAt State.transferAnswer
  rw [ha, hp, ht]
  cases d <;> cases s.answerAt 1 <;> simp

/-- Everything a transaction can do, from the answers to its invocations: in which state it returns which result, or in
which state it waits. -/
inductive XactRun (leg : Leg) (d : Bool) (s : State) : Ran Result → Prop where
  | lowSilent (h0 : s.answerAt 0 = .silent) : XactRun leg d s (.waiting (s.setPh leg.low))
  | lowFailHeld (e : Nat) (h0 : s.answerAt 0 = .fail e) (hr : s.params.releaseOnAssertFail = false) :
      XactRun leg d s (.done (.pin ⟨e⟩) (assertErr leg e s))
  | lowFailHighSilent (e : Nat) (h0 : s.answerAt 0 = .fail e) (hr : s.params.releaseOnAssertFail = true)
      (h1 : s.answerAt 1 = .silent) : XactRun leg d s (.waiting (assertErrHigh leg e s))
  | lowFailHighOk (e : Nat) (h0 : s.answerAt 0 = .fail e) (hr : s.params.releaseOnAssertFail = true)
      (h1 : s.answerAt 1 = .ok) : XactRun leg d s (.done (.pin ⟨e⟩) (highOk (assertErrHigh leg e s)))
  | lowFailHighFail (e e' : Nat) (h0 : s.answerAt 0 = .fail e) (hr : s.params.releaseOnAssertFail = true)
      (h1 : s.answerAt 1 = .fail e') : XactRun leg d s (.done (.pin ⟨e⟩) (highFail e' (assertErrHigh leg e s)))
  | dataSilent (h0 : s.answerAt 0 = .ok) (h1 : dataAnswerAt d s = .silent) :
      XactRun leg d s (.waiting (asserted leg s))
  | okHighSilent (h0 : s.answerAt 0 = .ok) (h1 : dataAnswerAt d s = .ok) (h2 : s.answerAt 2 = .silent) :
      XactRun leg d s (.waiting (exchanged leg d s))
  | allOk (h0 : s.answerAt 0 = .ok) (h1 : dataAnswerAt d s = .ok) (h2 : s.answerAt 2 = .ok) :
      XactRun leg d s (.done (.ok ((exchanged leg d s).xb.data (exchanged leg d s).xn)) (highOk (exchanged leg d s)))
  | okHighFail (p : Nat) (h0 : s.answerAt 0 = .ok) (h1 : dataAnswerAt d s = .ok) (h2 : s.answerAt 2 = .fail p) :
      XactRun leg d s (.done (.pin ⟨p⟩) (highFail p (exchanged leg d s)))
  | failHighSilent (c : Nat) (h0 : s.answerAt 0 = .ok) (h1 : dataAnswerAt d s = .fail c) (h2 : s.answerAt 2 = .silent) :
      XactRun leg d s (.waiting (exchangeErr leg d c s))
  | failHighOk (c : Nat) (h0 : s.answerAt 0 = .ok) (h1 : dataAnswerAt d s = .fail c) (h2 : s.answerAt 2 = .ok) :
      XactRun leg d s (.done (.comm ⟨c⟩) (highOk (exchangeErr leg d c s)))
  | failHighFail (c p : Nat) (r : Result) (h0 : s.answerAt 0 = .ok) (h1 : dataAnswerAt d s = .fail c)
      (h2 : s.answerAt 2 = .fail p)
      (hr : r = match s.params.doubleFault with | .comm => .comm ⟨c⟩ | .pin => .pin ⟨p⟩) :
      XactRun leg d s (.done r (highFail p (exchangeErr leg d c s)))

theorem dataOk_params (d : Bool) (s : State) : (dataOk d s).params = s.params := by cases d <;> simp [dataOk]
theorem dataFail_params (d : Bool) (e : Nat) (s : State) : (dataFail d e s).params = s.params := by
  cases d <;> simp [dataFail]

/-- Everything a transaction can do. -/
theorem xact_run (leg : Leg) (d : Bool) (s : State) : XactRun leg d s (xact leg d s) := by
  unfold xact
  cases h0 : s.answerAt 0 with
  | silent => rw [csLow_silent (by simpa using h0)]; exact .lowSilent h0
  | fail e =>
    rw [csLow_fail (e := e) (by simpa using h0)]
    simp only [Ran.bind, assertFailed]
    have hp : (lowFail e (s.setPh leg.low)).params = s.params := by simp [lowFail]
    cases hr : s.params.releaseOnAssertFail with
    | false => rw [if_neg (by simp [hp, hr])]; exact .lowFailHeld e h0 hr
    | true =>
      rw [if_pos (by simp [hp, hr])]
      cases h1 : s.answerAt 1 with
      | silent => rw [csHigh_silent (by simpa using h1)]; exact .lowFailHighSilent e h0 hr h1
      | ok => rw [csHigh_ok (by simpa using h1)]; exact .lowFailHighOk e h0 hr h1
      | fail e' => rw [csHigh_fail (e := e') (by simpa using h1)]; exact .lowFailHighFail e e' h0 hr h1
  | ok =>
    rw [csLow_ok (by simpa using h0)]
    show XactRun leg d s ((dataPhase d (asserted leg s)).bind fun r2 u => release leg r2 u)
    have hd := dataAnswer_asserted leg d s
    cases h1 : dataAnswerAt d s with
    | silent => rw [dataPhase_silent d (hd.trans h1)]; exact .dataSilent h0 h1
    | ok =>
      rw [dataPhase_ok d (hd.trans h1)]
      simp only [Ran.bind, release, pendOfData, xactResult]
      cases h2 : s.answerAt 2 with
      | silent => rw [csHigh_silent (by simpa using h2)]; exact .okHighSilent h0 h1 h2
      | ok =>
        rw [csHigh_ok (by simpa using h2)]
        have hx : (highOk (exchanged leg d s)).xb = (exchanged leg d s).xb := by simp [highOk]
        have hn : (highOk (exchanged leg d s)).xn = (exchanged leg d s).xn := by simp [highOk]
        have := XactRun.allOk (leg := leg) h0 h1 h2
        rw [← hx, ← hn] at this
        exact this
      | fail p => rw [csHigh_fail (e := p) (by simpa using h2)]; exact .okHighFail (leg := leg) p h0 h1 h2
    | fail c =>
      rw [dataPhase_fail (e := c) d (hd.trans h1)]
      simp only [Ran.bind, release, pendOfData, xactResult]
      cases h2 : s.answerAt 2 with
      | silent => rw [csHigh_silent (by simpa using h2)]; exact .failHighSilent c h0 h1 h2
      | ok => rw [csHigh_ok (by simpa using h2)]; exact .failHighOk (leg := leg) c h0 h1 h2
      | fail p =>
        rw [csHigh_fail (e := p) (by simpa using h2)]
        have hp : (highFail p (exchangeErr leg d c s)).params = s.params := by
          simp [highFail, exchangeErr, dataFail_params, asserted, lowOk]
        exact .failHighFail c p _ h0 h1 h2 (by rw [← hp]; rfl)

/-- A transaction whose three invocations are answered ok, and whose frame the environment gives a meaning. -/
theorem xact_allOk {leg : Leg} {d : Bool} {s : State} (h : s.AllOk 3) (hp : (d && s.pastMock) = false) :
    xact leg d s =
      .done (.ok ((exchanged leg d s).xb.data (exchanged leg d s).xn)) (highOk (exchanged leg d s)) := by
  have h0 := h 0 (by omega)
  have h1 := h 1 (by omega)
  have h2 := h 2 (by omega)
  rw [← dataAnswerAt_of_served hp] at h1
  have := xact_run leg d s
  generalize xact leg d s = r at this ⊢
  cases this <;> simp_all

end Sys2Proof.Laws
end

