-- ==== Sys2Proof/Laws/Commands.lean ====
section
/-! SUPPORT. What the memory primitives, the bank-select step and the end of a command do: what every transaction
keeps, the normal forms when nothing fails, and the frame of a response. -/

namespace Sys2Proof.Laws

open Sys2Proof.Machine

/-- The state of a procedure, whether it has returned or waits. -/
def ranState {α : Type} : Ran α → State
  | .done _ s => s
  | .waiting s => s

@[simp] theorem bind_done {α β : Type} (a : α) (s : State) (f : α → State → Ran β) :
    (Ran.done a s).bind f = f a s := rfl
@[simp] theorem bind_waiting {α β : Type} (s : State) (f : α → State → Ran β) :
    (Ran.waiting s : Ran α).bind f = .waiting s := rfl
@[simp] theorem ranState_done {α : Type} (a : α) (s : State) : ranState (.done a s) = s := rfl
@[simp] theorem ranState_waiting {α : Type} (s : State) : ranState (.waiting s : Ran α) = s := rfl

/-- What a transaction keeps, returned or waiting: everything but the phase, the buffer, the pending error, the line,
the trace, the answers and the device. -/
structure XactKeeps (s t : State) : Prop where
  params : t.params = s.params
  curBank : t.curBank = s.curBank
  cOp : t.cOp = s.cOp
  cBank : t.cBank = s.cBank
  cAddr : t.cAddr = s.cAddr
  cData : t.cData = s.cData
  xn : t.xn = s.xn
  rst : t.rst = s.rst
  rsps : t.rsps = s.rsps
  transport : t.transport = s.transport
  grain : t.grain = s.grain
  drops : t.drops = s.drops
  host : t.host = s.host

theorem xact_keeps (leg : Leg) (d : Bool) (s : State) : XactKeeps s (ranState (xact leg d s)) := by
  have h := xact_run leg d s
  generalize xact leg d s = r at h ⊢
  cases d <;> cases h <;>
    constructor <;>
    simp [asserted, assertErr, assertErrHigh, exchanged, exchangeErr, lowOk, lowFail, highOk, highFail, dataOk,
      dataFail]

/-- What a command keeps up to its response, or as long as it waits. -/
structure BodyKeeps (s t : State) : Prop where
  params : t.params = s.params
  rst : t.rst = s.rst
  rsps : t.rsps = s.rsps
  transport : t.transport = s.transport
  grain : t.grain = s.grain
  host : t.host = s.host

theorem XactKeeps.body {s t : State} (h : XactKeeps s t) : BodyKeeps s t :=
  ⟨h.params, h.rst, h.rsps, h.transport, h.grain, h.host⟩

theorem BodyKeeps.refl (s : State) : BodyKeeps s s := ⟨rfl, rfl, rfl, rfl, rfl, rfl⟩

theorem BodyKeeps.trans {s t u : State} (h : BodyKeeps s t) (k : BodyKeeps t u) : BodyKeeps s u :=
  ⟨k.params.trans h.params, k.rst.trans h.rst, k.rsps.trans h.rsps, k.transport.trans h.transport,
    k.grain.trans h.grain, k.host.trans h.host⟩

theorem latch_body (i : Instr) (s : State) : BodyKeeps s (latch i s) := ⟨rfl, rfl, rfl, rfl, rfl, rfl⟩

theorem setCurBank_body (b : Bank) (s : State) : BodyKeeps s (s.setCurBank b) := ⟨rfl, rfl, rfl, rfl, rfl, rfl⟩

theorem setFrame_body (x : XBuf) (n : FrameLen) (s : State) : BodyKeeps s (s.setFrame x n) :=
  ⟨rfl, rfl, rfl, rfl, rfl, rfl⟩

/-! ### The end of a command -/

@[simp] theorem receive_prog (r : Response) (h : HostState) : (h.receive r).prog = h.prog := by
  unfold HostState.receive; split <;> rfl
@[simp] theorem receive_next (r : Response) (h : HostState) : (h.receive r).next = h.next := by
  unfold HostState.receive; split <;> rfl
@[simp] theorem receive_goesOn (r : Response) (h : HostState) : (h.receive r).goesOn = h.goesOn := by
  unfold HostState.receive; split <;> rfl
@[simp] theorem receive_attempt (r : Response) (h : HostState) : (h.receive r).attempt = h.attempt := by
  unfold HostState.receive; split <;> rfl

/-- The response that ends a command with a result. -/
def resultResponse : Result → Response
  | .ok bytes => ⟨.ok, bytes⟩
  | .comm c => ⟨.comm c, []⟩
  | .pin p => ⟨.pin p, []⟩

/-- Every way to end a command is `endCommand` with the response of its result. -/
theorem respond_eq (r : Result) (s : State) : respond r s = endCommand (resultResponse r) s := by
  cases r <;> rfl

/-- A command that sends its response has ended. -/
theorem ended_endCommand {s u : State} (r : Response) (h : BodyKeeps s u) : Ended s (endCommand r u) r := by
  refine ⟨by simp [h.rsps], by simp [h.host], rfl, rfl, ?_⟩
  constructor <;> simp [h.params, h.transport, h.grain, h.rst, h.host]

/-- A command that has returned. -/
theorem runCommand_done {i : Instr} {body : State → Ran Result} {s u : State} {r : Result}
    (h : body (latch i s) = .done r u) : runCommand i body s = endCommand (resultResponse r) u := by
  unfold runCommand; rw [h, finish, respond_eq]

/-- A command that waits. -/
theorem runCommand_waiting {i : Instr} {body : State → Ran Result} {s u : State}
    (h : body (latch i s) = .waiting u) : runCommand i body s = u := by
  unfold runCommand; rw [h, finish]

/-- The device does not notice the end of a command. -/
@[simp] theorem endCommand_devByte (r : Response) (s : State) (b : Bank) (a : Addr) :
    (endCommand r s).devByte b a = s.devByte b a := rfl
@[simp] theorem endCommand_dBank (r : Response) (s : State) : (endCommand r s).dBank = s.dBank := rfl

/-- A waiting block is in a phase of the transaction (R189). -/
theorem xact_waiting_ph {leg : Leg} {d : Bool} {s t : State} (h : xact leg d s = .waiting t) :
    t.ph = leg.low ∨ t.ph = leg.data ∨ t.ph = leg.high := by
  have hr := xact_run leg d s
  rw [h] at hr
  cases hr <;> simp [asserted, assertErrHigh, exchanged, exchangeErr]

theorem leg_not_idle (leg : Leg) : leg.low ≠ .idle ∧ leg.data ≠ .idle ∧ leg.high ≠ .idle := by cases leg <;> decide

/-! ### When nothing fails -/

@[simp] theorem exchanged_xn (leg : Leg) (d : Bool) (s : State) : (exchanged leg d s).xn = s.xn := by
  cases d <;> simp [exchanged, dataOk, asserted, lowOk]

/-- The state after a transaction that did not fail (R61), apart from its device. -/
structure XactDone (d : Bool) (s t : State) : Prop extends XactKeeps s t where
  cs : t.cs = .high
  script : t.script = s.script.drop 3
  answers : ∀ k, t.answerAt k = s.answerAt (k + 3)
  tick : t.tick = s.tick + 3

theorem highOk_exchanged (leg : Leg) (d : Bool) (s : State) : XactDone d s (highOk (exchanged leg d s)) := by
  refine ⟨⟨?_, ?_, ?_, ?_, ?_, ?_, ?_, ?_, ?_, ?_, ?_, ?_, ?_⟩, ?_, ?_, fun k => ?_, ?_⟩ <;> cases d <;>
    simp [exchanged, asserted, lowOk, highOk, dataOk, ← List.drop_one, Nat.add_assoc]

/-- The response of a read transaction is drawn with the line asserted; only the frame and the device matter for it. -/
def exchangedResponse (leg : Leg) (s : State) : XBuf := (asserted leg s).response

theorem asserted_xb (leg : Leg) (s : State) : (asserted leg s).xb = s.xb := by simp [asserted, lowOk]
theorem asserted_transport (leg : Leg) (s : State) : (asserted leg s).transport = s.transport := by
  simp [asserted, lowOk]

/-- Asserting chip-select changes nothing in the mock (R64). -/
theorem asserted_mock (leg : Leg) {s : State} (h : s.transport = .mock) :
    (asserted leg s).dSel = s.dSel ∧ (asserted leg s).mem = s.mem := by simp [asserted, lowOk, h]

theorem exchanged_read {leg : Leg} {s : State} (h : isReadFrame s.xb.b0 = true) :
    (s.transport = .mock → (highOk (exchanged leg true s)).dSel = s.dSel ∧ (highOk (exchanged leg true s)).mem = s.mem) ∧
    (exchanged leg true s).xb = takeResponse (exchangedResponse leg s) s.xn s.xb ∧
    (highOk (exchanged leg true s)).trace = s.trace ++
      [.low, .transfer (s.xb.frame s.xn) ((exchangedResponse leg s).frame s.xn), .high] := by
  have e := asserted_xb leg s
  refine ⟨fun hm => ?_, ?_, ?_⟩
  · have ht := (asserted_transport leg s).trans hm
    simp [exchanged, highOk, dataOk, e, devWriteOk_read h, ht, asserted_mock leg hm]
  · simp [exchanged, dataOk, e, devWriteOk_read h]
    simp [asserted, lowOk, exchangedResponse]
  · simp [exchanged, highOk, dataOk, e, devWriteOk_read h]
    simp [asserted, lowOk, exchangedResponse]

theorem exchanged_write {leg : Leg} {s : State} {a : Addr} (h : s.xb.b0 = writeAddrByte a) :
    (s.transport = .mock → (highOk (exchanged leg false s)).dSel = (s.devStore a s.xb.b1).dSel ∧
      (highOk (exchanged leg false s)).mem = (s.devStore a s.xb.b1).mem) ∧
    (highOk (exchanged leg false s)).trace = s.trace ++ [.low, .write [writeAddrByte a, s.xb.b1], .high] := by
  have e := asserted_xb leg s
  refine ⟨fun hm => ?_, ?_⟩
  · have ht := (asserted_transport leg s).trans hm
    have c := devStore_congr (asserted_mock leg hm).1 (asserted_mock leg hm).2 (by simp [asserted, lowOk]) a s.xb.b1
    simpa [exchanged, highOk, dataOk, e, h, devWriteOk_mock ht, ht] using c
  · simp [exchanged, highOk, dataOk, e, h]
    simp [asserted, lowOk]

/-- The state after a memory primitive or a select that performed one transaction and did not fail, apart from
`cur_bank` and the device. -/
structure OneTransaction (s u : State) (tokens : List Event) : Prop extends BodyKeeps s u where
  cs : u.cs = .high
  script : u.script = s.script.drop 3
  answers : ∀ k, u.answerAt k = s.answerAt (k + 3)
  trace : u.trace = s.trace ++ tokens
  latches : u.cOp = s.cOp ∧ u.cBank = s.cBank ∧ u.cAddr = s.cAddr ∧ u.cData = s.cData
  tick : u.tick = s.tick + 3
  drops : u.drops = s.drops

theorem XactDone.one {d : Bool} {s t u : State} {tokens : List Event} (h : XactDone d t u)
    (ht : ∃ x n, t = s.setFrame x n) (htr : u.trace = t.trace ++ tokens) : OneTransaction s u tokens := by
  obtain ⟨x, n, rfl⟩ := ht
  exact ⟨(setFrame_body x n s).trans h.toXactKeeps.body, h.cs, h.script, h.answers, htr,
    ⟨h.cOp, h.cBank, h.cAddr, h.cData⟩, h.tick, h.drops⟩

theorem loadRead_b0 (a : Addr) (n : FrameLen) (x : XBuf) : (loadRead a n x).b0 = readAddrByte a := by
  cases n <;> rfl

theorem takeResponse_data (r x : XBuf) (n : FrameLen) : (takeResponse r n x).data n = r.data n := by cases n <;> rfl

/-- The response to a read frame on the mock (R65): the bytes it reads, given as functions of the state before. -/
theorem exchangedResponse_mock {leg : Leg} {a : Addr} {n : FrameLen} {s : State} (h : s.transport = .mock)
    (hn : n = .seven → a.toNat + 5 ≤ 0x7F) :
    (exchangedResponse leg (s.setFrame (loadRead a n s.xb) n)).data n =
      match n with
      | .two => [s.devByte s.dBank a]
      | .seven =>
        [s.devByte s.dBank a, s.devByte s.dBank (a + 1), s.devByte s.dBank (a + 2), s.devByte s.dBank (a + 3),
          s.devByte s.dBank (a + 4), s.devByte s.dBank (a + 5)] := by
  have hm : (s.setFrame (loadRead a n s.xb) n).transport = .mock := h
  have ha := asserted_mock leg hm
  have hd : ∀ b c, (asserted leg (s.setFrame (loadRead a n s.xb) n)).devByte b c = s.devByte b c :=
    fun b c => devByte_congr ha.1 ha.2 b c
  have hb : (asserted leg (s.setFrame (loadRead a n s.xb) n)).dBank = s.dBank :=
    dBank_congr ha.1 (by simp [asserted, lowOk])
  have ht : (asserted leg (s.setFrame (loadRead a n s.xb) n)).transport = .mock := by simp [asserted, lowOk, h]
  have hx : (asserted leg (s.setFrame (loadRead a n s.xb) n)).xb.b0 = readAddrByte a := by
    simp [asserted, lowOk, loadRead_b0]
  have hn' : (asserted leg (s.setFrame (loadRead a n s.xb) n)).xn = n := by simp [asserted, lowOk]
  unfold exchangedResponse State.response
  simp only [ht, hx, hn', isReadFrame_readAddrByte, if_true, frameAddr_readAddrByte]
  cases n with
  | two => simp [State.mockResponse, XBuf.data, hd, hb]
  | seven => simp only [State.mockResponse, hd, hb, if_pos (hn rfl), XBuf.data]

/-- The frame of `MemRead` has a meaning: on the mock a block read does not run past 0x7F (R65, R71). -/
def ReadServed (a : Addr) (n : FrameLen) (s : State) : Prop :=
  s.transport = .mock → n = .seven → a.toNat + 5 ≤ 0x7F

theorem ReadServed.two (a : Addr) (s : State) : ReadServed a .two s := fun _ h => absurd h (by decide)

theorem ReadServed.frame {a : Addr} {n : FrameLen} {s : State} (h : ReadServed a n s) :
    (true && (s.setFrame (loadRead a n s.xb) n).pastMock) = false := by
  rw [pastMock_loadRead]
  cases ht : s.transport with
  | free => simp
  | mock =>
    cases n with
    | two => simp
    | seven => have := h ht rfl; simp; omega

/-- `MemRead` when nothing fails (R59): one read frame; the data are those of the response; on the mock the device is as
before. -/
theorem memRead_ok (leg : Leg) (a : Addr) (n : FrameLen) {s : State} (h : s.AllOk 3) (hr : ReadServed a n s) :
    ∃ u resp, memRead leg a n s = .done (.ok (XBuf.data resp n)) u ∧
      OneTransaction s u [.low, .transfer ((loadRead a n s.xb).frame n) (resp.frame n), .high] ∧
      u.curBank = s.curBank ∧ (s.transport = .mock → u.dSel = s.dSel ∧ u.mem = s.mem) ∧
      resp = exchangedResponse leg (s.setFrame (loadRead a n s.xb) n) := by
  have h' : (s.setFrame (loadRead a n s.xb) n).AllOk 3 := h
  have hf : isReadFrame (s.setFrame (loadRead a n s.xb) n).xb.b0 = true := by simp [loadRead_b0]
  obtain ⟨e1, e3, e4⟩ := exchanged_read (leg := leg) hf
  have hd := highOk_exchanged leg true (s.setFrame (loadRead a n s.xb) n)
  refine ⟨highOk (exchanged leg true (s.setFrame (loadRead a n s.xb) n)), _, ?_, ?_, ?_, ?_, rfl⟩
  · unfold memRead
    rw [xact_allOk h' hr.frame, exchanged_xn, e3, setFrame_xn, setFrame_xb, takeResponse_data]
  · exact hd.one ⟨_, _, rfl⟩ e4
  · exact hd.curBank
  · exact e1

/-- `MemWrite` when nothing fails (R60): one write frame, and on the mock the byte stored at its target. -/
theorem memWrite_ok (leg : Leg) (a : Addr) (v : Byte) {s : State} (h : s.AllOk 3) :
    ∃ u, memWrite leg a v s = .done (.ok []) u ∧
      OneTransaction s u [.low, .write [writeAddrByte a, v], .high] ∧ u.curBank = s.curBank ∧
      (s.transport = .mock → u.dSel = (s.devStore a v).dSel ∧ u.mem = (s.devStore a v).mem) := by
  have h' : (s.setFrame (loadWrite a v s.xb) .two).AllOk 3 := h
  have hf : (s.setFrame (loadWrite a v s.xb) .two).xb.b0 = writeAddrByte a := rfl
  obtain ⟨e1, e3⟩ := exchanged_write (leg := leg) hf
  have hd := highOk_exchanged leg false (s.setFrame (loadWrite a v s.xb) .two)
  have c := devStore_congr (s := s) (t := s.setFrame (loadWrite a v s.xb) .two) rfl rfl rfl a v
  refine ⟨highOk (exchanged leg false (s.setFrame (loadWrite a v s.xb) .two)), ?_, ?_, ?_, fun hm => ?_⟩
  · unfold memWrite
    rw [xact_allOk h' (by simp)]
    rfl
  · exact hd.one ⟨_, _, rfl⟩ e3
  · exact hd.curBank
  · exact ⟨(e1 hm).1.trans c.1, (e1 hm).2.trans c.2⟩

/-- `SEL(b)` that is not skipped, when nothing fails (R140): the bank-select frame, then the record. -/
theorem sel_ok (b : Bank) {s : State} (hs : s.skips b = false) (h : s.AllOk 3) :
    ∃ u, sel b s = .done (.ok []) u ∧ OneTransaction s u (selectTokens s.params b) ∧ u.curBank = b ∧
      (s.transport = .mock → u.dSel = bankCode s.params b ∧ u.mem = s.mem) := by
  obtain ⟨u, e, k, -, e1⟩ := memWrite_ok .sel bankSelAddr (bankCode s.params b) h
  refine ⟨u.setCurBank b, ?_, ⟨k.toBodyKeeps.trans (setCurBank_body b u), k.cs, k.script, k.answers, k.trace,
    k.latches, k.tick, k.drops⟩, rfl, fun hm => ?_⟩
  · unfold sel
    rw [hs, if_neg (by simp), e]
    rfl
  · simpa [devStore_sel] using e1 hm

/-- A select that is skipped does nothing (R141). -/
theorem sel_skips {b : Bank} {s : State} (hs : s.skips b = true) : sel b s = .done (.ok []) s := by
  unfold sel; rw [if_pos hs]

/-- After a select that returned OK the access follows (R150). -/
theorem selThen_ok {b : Bank} {f : State → Ran Result} {s u : State} {d : List Byte}
    (h : sel b s = .done (.ok d) u) : selThen b f s = f u := by
  unfold selThen; rw [h]; rfl

end Sys2Proof.Laws
end

