-- ==== Sys2Proof/Laws/Access.lean ====
section
/-! SUPPORT. What a transaction, a memory primitive and the bank-select step can do, whatever the transport answers:
the tokens they add to the trace, what they leave of the mock, and the four ways a select that is not skipped can
end. -/

namespace Sys2Proof.Laws

open Sys2Proof.Machine

/-! ### Tokens -/

/-- A token of the data primitive over the frame in the buffer. -/
def DataToken (d : Bool) (s : State) (e : Event) : Prop :=
  match d with
  | false => e = .write [s.xb.b0, s.xb.b1] ∨ ∃ c, e = .writeErr [s.xb.b0, s.xb.b1] c
  | true => (∃ r, e = .transfer (s.xb.frame s.xn) (XBuf.frame r s.xn)) ∨ ∃ c, e = .transferErr (s.xb.frame s.xn) c

/-- The tokens of a transaction: chip-select tokens and tokens of its own frame; one assertion if it returns, and one
deassertion if it returns and either the assertion was ok or RELEASE_ON_ASSERT_FAIL holds (R61, R62). -/
theorem xact_tokens (leg : Leg) (d : Bool) (s : State) :
    ∃ es, (ranState (xact leg d s)).trace = s.trace ++ es ∧
      (∀ e ∈ es, e.isLow = true ∨ e.isHigh = true ∨ DataToken d s e) ∧
      ∀ r t, xact leg d s = .done r t →
        lowCount es = 1 ∧ (s.params.releaseOnAssertFail = true ∨ s.answerAt 0 = .ok → highCount es = 1) := by
  have h := xact_run leg d s
  generalize xact leg d s = r at h ⊢
  cases d <;> cases h <;>
    simp [asserted, assertErr, assertErrHigh, exchanged, exchangeErr, lowOk, lowFail, highOk, highFail, dataOk,
      dataFail, List.append_cancel_left_eq, DataToken, Event.isLow, Event.isHigh, lowCount, highCount] <;>
    (try simp_all) <;>
    (try (first | exact ⟨⟨_, rfl⟩, rfl⟩ | exact ⟨_, rfl⟩ | rfl))

/-- A transaction only adds to the trace. -/
theorem xact_grows (leg : Leg) (d : Bool) (s : State) : s.trace <+: (ranState (xact leg d s)).trace := by
  obtain ⟨es, h, -⟩ := xact_tokens leg d s
  exact ⟨es, h.symm⟩

/-- The data of a transaction that is OK are those in the buffer, no error is pending, and nothing failed. -/
theorem xact_ok_data {leg : Leg} {d : Bool} {s t : State} {b : List Byte} (h : xact leg d s = .done (.ok b) t) :
    b = t.xb.data t.xn ∧ t.pend = .none ∧ s.AllOk 3 := by
  have hr := xact_run leg d s
  rw [h] at hr
  cases hr with
  | allOk h0 h1 h2 =>
    replace h1 := answerAt_of_dataAnswerAt_ok h1
    refine ⟨by simp [highOk], by simp [highOk, exchanged], fun k hk => ?_⟩
    obtain rfl | rfl | rfl : k = 0 ∨ k = 1 ∨ k = 2 := by omega
    exacts [h0, h1, h2]
  | failHighFail c p r h0 h1 h2 hr =>
    exfalso
    revert hr
    cases s.params.doubleFault <;> simp

/-! ### The device -/

/-- A read transaction leaves the mock (R65). -/
theorem xact_read_device {leg : Leg} {s : State} (h : isReadFrame s.xb.b0 = true) (hm : s.transport = .mock) :
    (ranState (xact leg true s)).dSel = s.dSel ∧ (ranState (xact leg true s)).mem = s.mem := by
  have hr := xact_run leg true s
  generalize xact leg true s = r at hr ⊢
  cases hr <;>
    simp [asserted, assertErr, assertErrHigh, exchanged, exchangeErr, lowOk, lowFail, highOk, highFail, dataOk,
      dataFail, devWriteOk_read h, hm]

/-- The device of `t` is that of `s`, or that of `s` with one byte stored at `a`. -/
def StoredAtMost (a : Addr) (s t : State) : Prop :=
  (t.dSel = s.dSel ∧ t.mem = s.mem) ∨ ∃ v, t.dSel = (s.devStore a v).dSel ∧ t.mem = (s.devStore a v).mem

theorem StoredAtMost.congr {a : Addr} {s t u : State} (h : StoredAtMost a s t) (h1 : u.dSel = t.dSel)
    (h2 : u.mem = t.mem) : StoredAtMost a s u := by
  unfold StoredAtMost; rw [h1, h2]; exact h

/-- Nothing but the target changes. -/
theorem StoredAtMost.but {a : Addr} {s t : State} (h : StoredAtMost a s t) : SameDeviceBut s.dBank a s t := by
  intro b' a' hk
  obtain ⟨h1, h2⟩ | ⟨v, h1, h2⟩ := h
  · exact devByte_congr h1 h2 b' a'
  · rw [devByte_congr h1 h2]; exact devStore_other a v s b' a' hk

/-- What a write transaction to the mock stores, from its answers (R64, R75): its byte if the assertion and the `write`
are answered ok, whatever the deassertion then answers; else nothing. -/
theorem xact_write_stores {leg : Leg} {a : Addr} {s : State} (h : s.xb.b0 = writeAddrByte a) (hm : s.transport = .mock) :
    (s.answerAt 0 = .ok → s.answerAt 1 = .ok → (ranState (xact leg false s)).dSel = (s.devStore a s.xb.b1).dSel ∧
      (ranState (xact leg false s)).mem = (s.devStore a s.xb.b1).mem) ∧
    (s.answerAt 0 ≠ .ok ∨ s.answerAt 1 ≠ .ok → (ranState (xact leg false s)).dSel = s.dSel ∧
      (ranState (xact leg false s)).mem = s.mem) := by
  have ha := asserted_mock leg hm
  have ht := (asserted_transport leg s).trans hm
  have c := devStore_congr ha.1 ha.2 (by simp [asserted, lowOk]) a s.xb.b1
  have ok : (dataOk false (asserted leg s)).dSel = (s.devStore a s.xb.b1).dSel ∧
      (dataOk false (asserted leg s)).mem = (s.devStore a s.xb.b1).mem := by
    simpa [dataOk, asserted_xb, h, devWriteOk_mock ht, ht] using c
  have okt : (dataOk false (asserted leg s)).transport = .mock := by simp [dataOk, ht]
  have fl : ∀ x, (dataFail false x (asserted leg s)).dSel = s.dSel ∧ (dataFail false x (asserted leg s)).mem = s.mem :=
    fun x => by simp [dataFail, ht, ha]
  have flt : ∀ x, (dataFail false x (asserted leg s)).transport = .mock := fun x => by simp [dataFail, ht]
  have hr := xact_run leg false s
  generalize xact leg false s = r at hr ⊢
  cases hr <;> simp_all [assertErr, assertErrHigh, lowFail, exchanged, exchangeErr, highOk, highFail]

/-- A write transaction to the mock stores at most at its target (R64). -/
theorem xact_write_device {leg : Leg} {a : Addr} {s : State} (h : s.xb.b0 = writeAddrByte a) (hm : s.transport = .mock) :
    StoredAtMost a s (ranState (xact leg false s)) := by
  obtain ⟨h1, h2⟩ := xact_write_stores (leg := leg) h hm
  by_cases hk : s.answerAt 0 = .ok ∧ s.answerAt 1 = .ok
  · exact .inr ⟨_, h1 hk.1 hk.2⟩
  · exact .inl (h2 (not_and_or.1 hk))

/-! ### The memory primitives -/

/-- The state `MemWrite` ends or waits in is that of its transaction. -/
theorem ranState_memWrite (leg : Leg) (a : Addr) (v : Byte) (s : State) :
    ranState (memWrite leg a v s) = ranState (xact leg false (s.setFrame (loadWrite a v s.xb) .two)) := by
  unfold memWrite
  cases xact leg false (s.setFrame (loadWrite a v s.xb) .two) <;> rfl

theorem memRead_device (leg : Leg) (a : Addr) (n : FrameLen) {s : State} (hm : s.transport = .mock) :
    (ranState (memRead leg a n s)).dSel = s.dSel ∧ (ranState (memRead leg a n s)).mem = s.mem :=
  xact_read_device (s := s.setFrame (loadRead a n s.xb) n) (by simp [loadRead_b0]) hm

/-- What `MemWrite` stores in the mock, from its answers (R64, R75). -/
theorem memWrite_stores (leg : Leg) (a : Addr) (v : Byte) {s : State} (hm : s.transport = .mock) :
    (s.answerAt 0 = .ok → s.answerAt 1 = .ok → (ranState (memWrite leg a v s)).dSel = (s.devStore a v).dSel ∧
      (ranState (memWrite leg a v s)).mem = (s.devStore a v).mem) ∧
    (s.answerAt 0 ≠ .ok ∨ s.answerAt 1 ≠ .ok → (ranState (memWrite leg a v s)).dSel = s.dSel ∧
      (ranState (memWrite leg a v s)).mem = s.mem) := by
  rw [ranState_memWrite]
  obtain ⟨h1, h2⟩ := xact_write_stores (leg := leg) (s := s.setFrame (loadWrite a v s.xb) .two) (a := a) rfl hm
  have c := devStore_congr (s := s) (t := s.setFrame (loadWrite a v s.xb) .two) rfl rfl rfl a v
  exact ⟨fun k0 k1 => ⟨(h1 k0 k1).1.trans c.1, (h1 k0 k1).2.trans c.2⟩, h2⟩

theorem memWrite_device (leg : Leg) (a : Addr) (v : Byte) {s : State} (hm : s.transport = .mock) :
    StoredAtMost a s (ranState (memWrite leg a v s)) := by
  obtain ⟨h1, h2⟩ := memWrite_stores leg a v hm
  by_cases hk : s.answerAt 0 = .ok ∧ s.answerAt 1 = .ok
  · exact .inr ⟨v, h1 hk.1 hk.2⟩
  · exact .inl (h2 (not_and_or.1 hk))

theorem memRead_body (leg : Leg) (a : Addr) (n : FrameLen) (s : State) :
    BodyKeeps s (ranState (memRead leg a n s)) :=
  (setFrame_body _ _ s).trans (xact_keeps leg true (s.setFrame (loadRead a n s.xb) n)).body

theorem memWrite_body (leg : Leg) (a : Addr) (v : Byte) (s : State) : BodyKeeps s (ranState (memWrite leg a v s)) := by
  rw [ranState_memWrite]
  exact (setFrame_body _ _ s).trans (xact_keeps leg false _).body

/-! ### The bank-select step -/

/-- The transaction of `SEL(b)`. -/
def selectXact (b : Bank) (s : State) : Ran Result :=
  xact .sel false (s.setFrame (loadWrite bankSelAddr (bankCode s.params b) s.xb) .two)

/-- Everything `SEL(b)` can do (R140 to R143): skip; wait; succeed and record the bank; fail and record nothing. -/
theorem sel_cases (b : Bank) (s : State) :
    (s.skips b = true ∧ sel b s = .done (.ok []) s) ∨
    (s.skips b = false ∧
      ((∃ t, selectXact b s = .waiting t ∧ sel b s = .waiting t) ∨
       (∃ d t, selectXact b s = .done (.ok d) t ∧ sel b s = .done (.ok []) (t.setCurBank b)) ∨
       (∃ c t, selectXact b s = .done (.comm c) t ∧ sel b s = .done (.comm c) t) ∨
       (∃ p t, selectXact b s = .done (.pin p) t ∧ sel b s = .done (.pin p) t))) := by
  cases h : s.skips b with
  | true => exact .inl ⟨rfl, sel_skips h⟩
  | false =>
    refine .inr ⟨rfl, ?_⟩
    unfold sel memWrite selectXact
    rw [h]
    cases xact .sel false (s.setFrame (loadWrite bankSelAddr (bankCode s.params b) s.xb) .two) with
    | waiting t => exact .inl ⟨t, rfl, rfl⟩
    | done r t =>
      cases r with
      | ok d => exact .inr (.inl ⟨d, t, rfl, rfl⟩)
      | comm c => exact .inr (.inr (.inl ⟨c, t, rfl, rfl⟩))
      | pin p => exact .inr (.inr (.inr ⟨p, t, rfl, rfl⟩))

/-- A select that is not skipped ends or waits with the device of its transaction. -/
theorem sel_device {b : Bank} {s : State} (hs : s.skips b = false) :
    (ranState (sel b s)).dSel = (ranState (memWrite .sel bankSelAddr (bankCode s.params b) s)).dSel ∧
    (ranState (sel b s)).mem = (ranState (memWrite .sel bankSelAddr (bankCode s.params b) s)).mem := by
  unfold sel
  rw [if_neg (by simp [hs])]
  cases memWrite .sel bankSelAddr (bankCode s.params b) s with
  | waiting t => exact ⟨rfl, rfl⟩
  | done r t => cases r <;> exact ⟨rfl, rfl⟩

/-- What a select that is not skipped stores in the mock, from its answers (R64, R75, R143). -/
theorem sel_stores {b : Bank} {s : State} (hm : s.transport = .mock) (hs : s.skips b = false) :
    (s.answerAt 0 = .ok → s.answerAt 1 = .ok → (ranState (sel b s)).dSel = bankCode s.params b) ∧
    (s.answerAt 0 ≠ .ok ∨ s.answerAt 1 ≠ .ok → (ranState (sel b s)).dSel = s.dSel) := by
  obtain ⟨h1, h2⟩ := memWrite_stores .sel bankSelAddr (bankCode s.params b) hm
  rw [devStore_sel] at h1
  exact ⟨fun k0 k1 => (sel_device hs).1.trans (h1 k0 k1).1, fun k => (sel_device hs).1.trans (h2 k).1⟩

/-- A select leaves every register of the mock but 0x7F. -/
theorem sel_mem (b : Bank) {s : State} (hm : s.transport = .mock) : (ranState (sel b s)).mem = s.mem := by
  cases hs : s.skips b with
  | true => rw [sel_skips hs]; rfl
  | false =>
    rw [(sel_device hs).2]
    obtain h | ⟨v, -, h⟩ := memWrite_device .sel bankSelAddr (bankCode s.params b) hm
    · exact h.2
    · rw [devStore_sel] at h; exact h

end Sys2Proof.Laws
end

