-- ==== Sys2Proof/Laws/Exec.lean ====
section
/-! SUPPORT. A command as a whole: its body between latching and responding (`exec_cases`), how a relation that the
memory primitives keep is kept by every command (`commandBody_keeps`), and the status or the phase a transaction ends or
waits with, read off the answers (`xact_status`, `xact_stall`). -/

namespace Sys2Proof.Laws

open Sys2Proof.Machine

/-- What a command does between latching and its response. -/
def commandBody : Instr → State → Ran Result
  | .selb b => sel b
  | .rdr a => memRead .acc a .two
  | .wrr a v => memWrite .acc a v
  | .rdb b a => selThen b (memRead .acc a .two)
  | .wrb b a v => selThen b (memWrite .acc a v)
  | .rdv a => memRead .acc a .seven
  | .rdvb b a => selThen b (memRead .acc a .seven)

theorem exec_eq (i : Instr) (s : State) : exec i s = .next (runCommand i (commandBody i) s) := by cases i <;> rfl

/-- Everything a command can do: its body returns and the response of its result ends it, or its body waits. -/
theorem exec_cases {i : Instr} {s t : State} (h : exec i s = .next t) :
    (∃ r u, commandBody i (latch i s) = .done r u ∧ t = endCommand (resultResponse r) u) ∨
      commandBody i (latch i s) = .waiting t := by
  rw [exec_eq] at h
  injection h with h
  cases e : commandBody i (latch i s) with
  | done r u => exact .inl ⟨r, u, rfl, by rw [← h, runCommand_done e]⟩
  | waiting u => rw [runCommand_waiting e] at h; subst h; exact .inr rfl

/-- A select that returned or waits, in a relation that is a preorder and that the record and its write keep. -/
theorem sel_keeps {P : State → State → Prop} (refl : ∀ s, P s s) (trans : ∀ {s t u}, P s t → P t u → P s u)
    (record : ∀ b s, P s (s.setCurBank b)) (write : ∀ leg a v s, P s (ranState (memWrite leg a v s)))
    (b : Bank) (s : State) : P s (ranState (sel b s)) := by
  unfold sel
  split
  · exact refl s
  · have h := write .sel bankSelAddr (bankCode s.params b) s
    cases e : memWrite .sel bankSelAddr (bankCode s.params b) s with
    | waiting t => rw [e] at h; exact h
    | done r t =>
      rw [e] at h
      cases r with
      | ok d => exact trans h (record b t)
      | comm c => exact h
      | pin p => exact h

/-- A preorder on states that the record of the bank and the two memory primitives keep is kept by the body of every
command, returned or waiting. -/
theorem commandBody_keeps {P : State → State → Prop} (refl : ∀ s, P s s) (trans : ∀ {s t u}, P s t → P t u → P s u)
    (record : ∀ b s, P s (s.setCurBank b)) (write : ∀ leg a v s, P s (ranState (memWrite leg a v s)))
    (read : ∀ leg a n s, P s (ranState (memRead leg a n s))) (i : Instr) (s : State) :
    P s (ranState (commandBody i s)) := by
  have banked : ∀ (b : Bank) (f : State → Ran Result), (∀ s, P s (ranState (f s))) → P s (ranState (selThen b f s)) := by
    intro b f hf
    have h := sel_keeps refl trans record write b s
    unfold selThen
    cases e : sel b s with
    | waiting t => rw [e] at h; exact h
    | done r t =>
      rw [e] at h
      cases r with
      | ok d => exact trans h (hf t)
      | comm c => exact h
      | pin p => exact h
  cases i with
  | selb b => exact sel_keeps refl trans record write b s
  | rdr a => exact read ..
  | wrr a v => exact write ..
  | rdb b a => exact banked b _ (read _ _ _)
  | wrb b a v => exact banked b _ (write _ _ _)
  | rdv a => exact read ..
  | rdvb b a => exact banked b _ (read _ _ _)

theorem commandBody_body (i : Instr) (s : State) : BodyKeeps s (ranState (commandBody i s)) :=
  commandBody_keeps BodyKeeps.refl BodyKeeps.trans setCurBank_body memWrite_body memRead_body i s

/-- A select is a select followed by an access that does nothing. -/
theorem sel_eq_selThen (b : Bank) (s : State) : sel b s = selThen b (fun t => .done (.ok []) t) s := by
  unfold selThen
  obtain ⟨-, e⟩ | ⟨-, ⟨t, -, e⟩ | ⟨d, t, -, e⟩ | ⟨c, t, -, e⟩ | ⟨p, t, -, e⟩⟩ := sel_cases b s <;> rw [e] <;> rfl

/-- The status of a transaction that returns, from its answers (R61, R63). -/
theorem xact_status {leg : Leg} {d : Bool} {s t : State} {r : Result} (h : xact leg d s = .done r t)
    (hp : (d && s.pastMock) = false) : s.xactStatus 0 = some (resultResponse r).status := by
  have hr := xact_run leg d s
  rw [h] at hr
  have hd := dataAnswerAt_of_served hp
  unfold State.xactStatus
  cases hr with
  | lowFailHeld e h0 => simp [h0, resultResponse]
  | lowFailHighOk e h0 => simp [h0, resultResponse]
  | lowFailHighFail e _ h0 => simp [h0, resultResponse]
  | allOk h0 h1 h2 => rw [hd] at h1; simp [h0, h1, h2, resultResponse]
  | okHighFail p h0 h1 h2 => rw [hd] at h1; simp [h0, h1, h2, resultResponse]
  | failHighOk p h0 h1 h2 => rw [hd] at h1; simp [h0, h1, h2, resultResponse]
  | failHighFail c p r h0 h1 h2 hr =>
    rw [hd] at h1
    simp only [Nat.zero_add, h0, h1, h2]
    subst hr
    cases s.params.doubleFault <;> rfl

/-- The phase in which a transaction waits that meets an unanswered invocation (R61, R188, R189). -/
theorem xact_stall {leg : Leg} {d : Bool} {s : State} {f : Leg → Phase} (h : s.stall 0 = some f)
    (hp : (d && s.pastMock) = false) : ∃ t, xact leg d s = .waiting t ∧ t.ph = f leg := by
  have hr := xact_run leg d s
  have hd := dataAnswerAt_of_served hp
  unfold State.stall at h
  simp only [Nat.zero_add] at h
  generalize xact leg d s = R at hr
  cases hr <;> (try rw [hd] at *) <;> simp_all <;> (subst h; rfl)

end Sys2Proof.Laws
end

