-- ==== Sys2Proof/Laws/Facade.lean ====
section
/-! SUPPORT. What is known of a configuration (R176), said once: every write that `setupWrites` lists is one of the
commands, and a known configuration has a write of FIFO-enable-2 and, for each interrupt-enable register, a write with a
value that disables interrupts. -/

namespace Sys2Proof.Laws

open Sys2Proof.Machine

/-- A listed write is the write of one of the commands, raw or banked. -/
theorem setupWrites_mem {w : SetupWrite} {commands : List Instr} {b : Bank} (h : w ∈ setupWrites b commands) :
    .wrr w.addr w.value ∈ commands ∨ ∃ b', .wrb b' w.addr w.value ∈ commands := by
  induction commands generalizing b with
  | nil => simp [setupWrites] at h
  | cons i is ih =>
    have rest : ∀ b, w ∈ setupWrites b is → .wrr w.addr w.value ∈ i :: is ∨ ∃ b', .wrb b' w.addr w.value ∈ i :: is :=
      fun b h => (ih h).imp (List.mem_cons_of_mem _) (Exists.imp fun _ => List.mem_cons_of_mem _)
    cases i with
    | wrr a v =>
      obtain rfl | h := List.mem_cons.1 h
      · exact .inl List.mem_cons_self
      · exact rest _ h
    | wrb b' a v =>
      obtain rfl | h := List.mem_cons.1 h
      · exact .inr ⟨b', List.mem_cons_self⟩
      · exact rest _ h
    | selb b' => exact rest _ h
    | rdr a => exact rest _ h
    | rdb b' a => exact rest _ h
    | rdv a => exact rest _ h
    | rdvb b' a => exact rest _ h

/-- A known configuration writes FIFO-enable-2. -/
theorem setupKnown_fifo {o : SetupOpen} {commands : List Instr} (h : setupKnown o commands = true) :
    ∃ w ∈ setupWrites 0 commands, w.bank = o.fifoBank ∧ w.addr = NamedReg.fifoEnable2.addr := by
  simp only [setupKnown, Bool.and_eq_true, List.any_eq_true] at h
  obtain ⟨⟨-, w, hw, hf⟩, -⟩ := h
  exact ⟨w, hw, by simpa [SetupOpen.writesFifo] using hf⟩

/-- A known configuration writes each interrupt-enable register, with a value that disables interrupts. -/
theorem setupKnown_irq {o : SetupOpen} {commands : List Instr} (h : setupKnown o commands = true) (k : Fin 4) :
    ∃ w ∈ setupWrites 0 commands, w.bank = o.irqBank k ∧ w.addr = (NamedReg.interruptEnable k).addr ∧
      o.off k w.value = true := by
  simp only [setupKnown, Bool.and_eq_true, List.all_eq_true, List.any_eq_true] at h
  obtain ⟨⟨w, hw, hk⟩, hoff⟩ := h.2 k (List.mem_finRange k)
  have he : w.bank = o.irqBank k ∧ w.addr = (NamedReg.interruptEnable k).addr := by
    simpa [SetupOpen.writesIrq] using hk
  exact ⟨w, hw, he.1, he.2, by simpa [hk] using hoff w hw⟩

end Sys2Proof.Laws
end

