-- ==== Sys2Proof/Laws/PerInstr.lean ====
section
/-! SUPPORT. The per-instruction family `OpClass`: the classes the sequencer sorts the latched opcode into (R186) are
those of the command that was latched (R91 to R94). -/

namespace Sys2Proof.Laws.OpClass

open Sys2Proof.Machine

/-- The opcode of a command says whether it carries a bank, whether it is a write, a single read or a block read, and
which fields of its word it uses; the bank latched is the one it carries. -/
def Statement (i : Instr) : Prop :=
  opHasBank i.fields.op = (commandBank i).isSome ∧ i.fields.usesBank = (commandBank i).isSome ∧
  opIsWrite i.fields.op = i.fields.usesData ∧
  (opIsWrite i.fields.op || opIsRead i.fields.op || opIsBlockRead i.fields.op) = i.fields.usesAddr ∧
  (∀ b, commandBank i = some b → i.fields.bank = b)

theorem selb (b : Bank) : Statement (.selb b) := ⟨rfl, rfl, rfl, rfl, fun _ h => Option.some.inj h⟩
theorem rdr (a : Addr) : Statement (.rdr a) := ⟨rfl, rfl, rfl, rfl, nofun⟩
theorem wrr (a : Addr) (v : Byte) : Statement (.wrr a v) := ⟨rfl, rfl, rfl, rfl, nofun⟩
theorem rdb (b : Bank) (a : Addr) : Statement (.rdb b a) := ⟨rfl, rfl, rfl, rfl, fun _ h => Option.some.inj h⟩
theorem wrb (b : Bank) (a : Addr) (v : Byte) : Statement (.wrb b a v) :=
  ⟨rfl, rfl, rfl, rfl, fun _ h => Option.some.inj h⟩
theorem rdv (a : Addr) : Statement (.rdv a) := ⟨rfl, rfl, rfl, rfl, nofun⟩
theorem rdvb (b : Bank) (a : Addr) : Statement (.rdvb b a) := ⟨rfl, rfl, rfl, rfl, fun _ h => Option.some.inj h⟩

end Sys2Proof.Laws.OpClass
end

