-- ==== Sys2Proof/Laws/Sequencer.lean ====
section
/-! SUPPORT. The sequencer: everything one step of it can do (`seqLow_run`, `seqData_run`, `seqHigh_run`), and three
steps of it against one transaction (`leg_steps`). -/

namespace Sys2Proof.Laws

open Sys2Proof.Machine

/-! ### What a primitive can do -/

/-- `cs_low`: no answer, ok, or a failure. -/
theorem csLow_run (s : State) :
    csLow s = .waiting s ∨ csLow s = .done none (lowOk s) ∨ ∃ e, csLow s = .done (some ⟨e⟩) (lowFail e s) := by
  cases h : s.answerAt 0 with
  | ok => exact .inr (.inl (csLow_ok h))
  | fail e => exact .inr (.inr ⟨e, csLow_fail h⟩)
  | silent => exact .inl (csLow_silent h)

/-- `cs_high`: no answer, ok, or a failure. -/
theorem csHigh_run (s : State) :
    csHigh s = .waiting s ∨ csHigh s = .done none (highOk s) ∨ ∃ e, csHigh s = .done (some ⟨e⟩) (highFail e s) := by
  cases h : s.answerAt 0 with
  | ok => exact .inr (.inl (csHigh_ok h))
  | fail e => exact .inr (.inr ⟨e, csHigh_fail h⟩)
  | silent => exact .inl (csHigh_silent h)

/-- The data primitive: no answer, ok, or a failure. -/
theorem dataPhase_run (d : Bool) (s : State) :
    dataPhase d s = .waiting s ∨ dataPhase d s = .done none (dataOk d s) ∨
      ∃ e, dataPhase d s = .done (some ⟨e⟩) (dataFail d e s) := by
  cases h : dataAnswer d s with
  | ok => exact .inr (.inl (dataPhase_ok d h))
  | fail e => exact .inr (.inr ⟨e, dataPhase_fail d h⟩)
  | silent => exact .inl (dataPhase_silent d h)

/-! ### What one step can do -/

/-- Rows T4 and T7 (R188, R189). -/
theorem seqLow_run (leg : Leg) (s : State) :
    seqLow leg s = s ∨ seqLow leg s = (lowOk s).setPh leg.data ∨
    (∃ e, seqLow leg s = ((lowFail e s).setPend (.pin ⟨e⟩)).setPh leg.high) ∨
    ∃ e, seqLow leg s = raise (.pin ⟨e⟩) (lowFail e s) := by
  unfold seqLow
  obtain h | h | ⟨e, h⟩ := csLow_run s
  · rw [h]; exact .inl rfl
  · rw [h]; exact .inr (.inl rfl)
  · rw [h]
    simp only [afterLow]
    split
    · exact .inr (.inr (.inl ⟨e, rfl⟩))
    · exact .inr (.inr (.inr ⟨e, rfl⟩))

/-- Rows T5 and T8 (R188, R189). -/
theorem seqData_run (leg : Leg) (d : Bool) (s : State) :
    seqData leg d s = s ∨ seqData leg d s = (dataOk d s).setPh leg.high ∨
    ∃ e, seqData leg d s = ((dataFail d e s).setPend (.comm ⟨e⟩)).setPh leg.high := by
  unfold seqData
  obtain h | h | ⟨e, h⟩ := dataPhase_run d s <;> rw [h]
  · exact .inl rfl
  · exact .inr (.inl rfl)
  · exact .inr (.inr ⟨e, rfl⟩)

/-- Rows T6 and T9 (R188, R189): no answer, the success that follows, or the pending error raised; the state the rest
happens in has only the line, the trace and the answers changed. -/
theorem seqHigh_run (ok : State → State) (s : State) :
    seqHigh ok s = s ∨ ∃ t, (t = highOk s ∨ ∃ e, t = highFail e s) ∧
      ((s.pend = .none ∧ t = highOk s ∧ seqHigh ok s = ok t) ∨ (∃ c, seqHigh ok s = raise (.comm c) t) ∨
        ∃ p, seqHigh ok s = raise (.pin p) t) := by
  have done : ∀ (r : Option PinErr) (t : State), csHigh s = .done r t → t.pend = s.pend → t.params = s.params →
      (r = none → t = highOk s) →
      (s.pend = .none ∧ t = highOk s ∧ seqHigh ok s = ok t) ∨ (∃ c, seqHigh ok s = raise (.comm c) t) ∨
        ∃ p, seqHigh ok s = raise (.pin p) t := by
    intro r t h hp hq hr
    unfold seqHigh
    rw [h]
    simp only [hp, hq]
    cases hn : noteHigh s.params.doubleFault r s.pend with
    | comm c => exact .inr (.inl ⟨c, rfl⟩)
    | pin p => exact .inr (.inr ⟨p, rfl⟩)
    | none =>
      cases r with
      | none => exact .inl ⟨hn, hr rfl, rfl⟩
      | some p =>
        cases hs : s.pend <;> rw [hs] at hn <;> simp only [noteHigh, reduceCtorEq] at hn
        revert hn
        cases s.params.doubleFault <;> simp
  obtain h | h | ⟨e, h⟩ := csHigh_run s
  · unfold seqHigh; rw [h]; exact .inl rfl
  · exact .inr ⟨_, .inl rfl, done _ _ h (by simp [highOk]) (by simp [highOk]) fun _ => rfl⟩
  · exact .inr ⟨_, .inr ⟨e, rfl⟩, done _ _ h (by simp [highFail]) (by simp [highFail]) nofun⟩

/-! ### Phases -/

theorem setPh_self {s : State} {p : Phase} (h : s.ph = p) : s.setPh p = s := by subst h; rfl

/-- In IDLE there is no step to take. -/
theorem seqSteps_idle {s : State} (h : s.ph = .idle) : ∀ n, seqSteps n s = s
  | 0 => rfl
  | n + 1 => by rw [seqSteps, seqStep, h]; exact seqSteps_idle h n

/-- A step that changes nothing changes nothing for ever (R189). -/
theorem seqSteps_fix {s : State} (h : seqStep s = s) : ∀ n, seqSteps n s = s
  | 0 => rfl
  | n + 1 => by rw [seqSteps, h]; exact seqSteps_fix h n

theorem seqSteps_add (m n : Nat) (s : State) : seqSteps (m + n) s = seqSteps n (seqSteps m s) := by
  induction m generalizing s with
  | zero => simp [seqSteps]
  | succ m ih => rw [Nat.succ_add]; exact ih _

theorem seqStep_sLow {t : State} (h : t.ph = .sLow) : seqStep t = seqLow .sel t := by rw [seqStep, h]
theorem seqStep_sData {t : State} (h : t.ph = .sData) : seqStep t = seqData .sel false t := by rw [seqStep, h]
theorem seqStep_sHigh {t : State} (h : t.ph = .sHigh) : seqStep t = seqHigh seqSelected t := by rw [seqStep, h]
theorem seqStep_aLow {t : State} (h : t.ph = .aLow) : seqStep t = seqLow .acc t := by rw [seqStep, h]
theorem seqStep_aData {t : State} (h : t.ph = .aData) : seqStep t = seqData .acc (!opIsWrite t.cOp) t := by
  rw [seqStep, h]
theorem seqStep_aHigh {t : State} (h : t.ph = .aHigh) : seqStep t = seqHigh seqAccessed t := by rw [seqStep, h]

/-! ### Three steps against one transaction -/

/-- What the sequencer does with the outcome of a transaction. -/
def settle (ok : State → State) : Ran Result → State
  | .waiting t => t
  | .done (.ok _) t => ok t
  | .done (.comm c) t => raise (.comm c) t
  | .done (.pin p) t => raise (.pin p) t

/-- The pending error kept by the sequencer is the status XACT chooses (R63, R186). -/
theorem afterHigh_noteHigh (ok : State → State) (df : DoubleFault) (r2 : Option CommErr) (r3 : Option PinErr)
    (data : List Byte) (s : State) :
    afterHigh ok (noteHigh df r3 (pendOfData r2)) s = settle ok (.done (xactResult df data r2 r3) s) := by
  cases r2 <;> cases r3 <;> cases df <;> rfl

theorem csLow_waiting {s t : State} (h : csLow s = .waiting t) : t = s := by
  obtain h' | h' | ⟨e, h'⟩ := csLow_run s <;> rw [h'] at h <;> cases h; rfl
theorem csHigh_waiting {s t : State} (h : csHigh s = .waiting t) : t = s := by
  obtain h' | h' | ⟨e, h'⟩ := csHigh_run s <;> rw [h'] at h <;> cases h; rfl
theorem dataPhase_waiting {d : Bool} {s t : State} (h : dataPhase d s = .waiting t) : t = s := by
  obtain h' | h' | ⟨e, h'⟩ := dataPhase_run d s <;> rw [h'] at h <;> cases h; rfl

theorem csLow_done {s t : State} {r : Option PinErr} (h : csLow s = .done r t) : t.cOp = s.cOp ∧ t.pend = s.pend := by
  obtain h' | h' | ⟨e, h'⟩ := csLow_run s <;> rw [h'] at h <;> cases h <;> simp [lowOk, lowFail]
theorem csHigh_done {s t : State} {r : Option PinErr} (h : csHigh s = .done r t) : t.pend = s.pend := by
  obtain h' | h' | ⟨e, h'⟩ := csHigh_run s <;> rw [h'] at h <;> cases h <;> simp [highOk, highFail]
theorem dataPhase_done {d : Bool} {s t : State} {r : Option CommErr} (h : dataPhase d s = .done r t) :
    t.pend = s.pend := by
  obtain h' | h' | ⟨e, h'⟩ := dataPhase_run d s <;> rw [h'] at h <;> cases h <;>
    cases d <;> simp [dataOk, dataFail]

/-- The step functions of a leg, as three hypotheses about `seqStep`. -/
structure LegSteps (leg : Leg) (dup : Bool) (ok : State → State) (op : BitVec 3) : Prop where
  low : ∀ t : State, t.ph = leg.low → seqStep t = seqLow leg t
  data : ∀ t : State, t.ph = leg.data → t.cOp = op → seqStep t = seqData leg dup t
  high : ∀ t : State, t.ph = leg.high → seqStep t = seqHigh ok t

theorem selSteps (op : BitVec 3) : LegSteps .sel false seqSelected op :=
  ⟨fun _ h => seqStep_sLow h, fun _ h _ => seqStep_sData h, fun _ h => seqStep_sHigh h⟩

theorem accSteps (op : BitVec 3) : LegSteps .acc (!opIsWrite op) seqAccessed op :=
  ⟨fun _ h => seqStep_aLow h, fun _ h k => k ▸ seqStep_aData h, fun _ h => seqStep_aHigh h⟩

/-- Three steps of the sequencer from the first phase of a leg are one transaction, settled. -/
theorem leg_steps {leg : Leg} {dup : Bool} {ok : State → State} {s : State} (hl : LegSteps leg dup ok s.cOp)
    (hp : s.ph = leg.low) (hn : s.pend = .none) : seqSteps 3 s = settle ok (xact leg dup s) := by
  have e1 : seqStep s = seqLow leg s := hl.low s hp
  simp only [seqSteps, e1, xact, setPh_self hp, seqLow]
  cases e : csLow s with
  | waiting t =>
    obtain rfl := csLow_waiting e
    simp [Ran.bind, e1, seqLow, e, settle]
  | done r t =>
    obtain ⟨kc, kp⟩ := csLow_done e
    cases r with
    | some p =>
      simp only [Ran.bind, assertFailed, afterLow]
      split
      · have e3 := hl.high ((t.setPend (.pin p)).setPh leg.high) (by simp)
        rw [e3, seqHigh]
        cases e2 : csHigh ((t.setPend (.pin p)).setPh leg.high) with
        | waiting u =>
          obtain rfl := csHigh_waiting e2
          simp [e3, seqHigh, e2, settle]
        | done r u =>
          have mp := csHigh_done e2
          simp only [setPh_pend, setPend_pend] at mp
          cases r <;> simp only [mp, noteHigh, afterHigh] <;> exact seqSteps_idle (s := raise (.pin p) u) rfl 1
      · exact seqSteps_idle (s := raise (.pin p) t) rfl 2
    | none =>
      simp only [Ran.bind, afterLow]
      have e2' := hl.data (t.setPh leg.data) (by simp) (by simp [kc])
      rw [e2', seqData]
      cases e2 : dataPhase dup (t.setPh leg.data) with
      | waiting u =>
        obtain rfl := dataPhase_waiting e2
        simp [e2', seqData, e2, settle]
      | done r2 u =>
        have lp := dataPhase_done e2
        have key : afterData leg r2 u = (u.setPend (pendOfData r2)).setPh leg.high := by
          cases r2 with
          | some c => rfl
          | none =>
            have : u.pend = .none := by rw [lp, setPh_pend, kp, hn]
            cases u; simp_all [State.setPend, State.setPh, pendOfData, afterData]
        simp only [key]
        rw [hl.high _ (by simp), seqHigh, release]
        cases e3 : csHigh ((u.setPend (pendOfData r2)).setPh leg.high) with
        | waiting v => obtain rfl := csHigh_waiting e3; simp [Ran.bind, settle]
        | done r3 v =>
          have mp := csHigh_done e3
          simp only [setPh_pend, setPend_pend] at mp
          simp only [Ran.bind, mp]
          exact afterHigh_noteHigh ..

/-- A transaction that waits, waits in a state the sequencer does not leave (R189, R238). -/
theorem leg_stuck {leg : Leg} {dup : Bool} {ok : State → State} {s t : State} (hl : LegSteps leg dup ok s.cOp)
    (hp : s.ph = leg.low) (h : xact leg dup s = .waiting t) : seqStep t = t := by
  rw [xact, setPh_self hp] at h
  cases e : csLow s with
  | waiting u =>
    obtain rfl := csLow_waiting e
    simp only [e, Ran.bind, Ran.waiting.injEq] at h
    subst h; rw [hl.low _ hp, seqLow, e]
  | done r u =>
    obtain ⟨kc, -⟩ := csLow_done e
    simp only [e, Ran.bind] at h
    cases r with
    | some p =>
      simp only [assertFailed] at h
      split at h
      · cases e2 : csHigh ((u.setPend (.pin p)).setPh leg.high) with
        | waiting v =>
          obtain rfl := csHigh_waiting e2
          simp only [e2, Ran.bind, Ran.waiting.injEq] at h
          subst h; rw [hl.high _ (by simp), seqHigh, e2]
        | done r2 v => simp [e2, Ran.bind] at h
      · simp at h
    | none =>
      simp only at h
      cases e2 : dataPhase dup (u.setPh leg.data) with
      | waiting v =>
        obtain rfl := dataPhase_waiting e2
        simp only [e2, Ran.waiting.injEq] at h
        subst h; rw [hl.data _ (by simp) (by simp [kc]), seqData, e2]
      | done r2 v =>
        simp only [e2, release] at h
        cases e3 : csHigh ((v.setPend (pendOfData r2)).setPh leg.high) with
        | waiting w =>
          obtain rfl := csHigh_waiting e3
          simp only [e3, Ran.bind, Ran.waiting.injEq] at h
          subst h; rw [hl.high _ (by simp), seqHigh, e3]
        | done r3 w => simp [e3, Ran.bind] at h

end Sys2Proof.Laws
end

