-- ==== Sys2Proof/Laws/TwoRuns.lean ====
section
/-! SUPPORT. Two runs side by side: a relation between states that the four primitives respect is respected by a
transaction, the memory primitives, the select and a banked command; and one such relation, that of two states that
differ in their working registers, the responses sent and the host only. -/

namespace Sys2Proof.Laws

open Sys2Proof.Machine

/-- Both have returned the same, or both wait, and the states are related. -/
def RanRel {α : Type} (R : State → State → Prop) : Ran α → Ran α → Prop
  | .done a s, .done b t => a = b ∧ R s t
  | .waiting s, .waiting t => R s t
  | .done _ _, .waiting _ => False
  | .waiting _, .done _ _ => False

theorem RanRel.bind {α β : Type} {R Q : State → State → Prop} {x y : Ran α} {f g : α → State → Ran β}
    (h : RanRel R x y) (hf : ∀ a s t, R s t → RanRel Q (f a s) (g a t))
    (hw : ∀ s t, R s t → Q s t := by exact fun _ _ h => h) : RanRel Q (x.bind f) (y.bind g) := by
  cases x <;> cases y
  · obtain ⟨rfl, h⟩ := h; exact hf _ _ _ h
  · exact h.elim
  · exact h.elim
  · exact hw _ _ h

/-- What the primitives ask of a relation: it fixes what they look at, and the updates they make keep it. -/
structure Simulates (R : State → State → Prop) : Prop where
  answer {s t} : R s t → t.answer = s.answer
  transferAnswer {s t} : R s t → t.transferAnswer = s.transferAnswer
  tick {s t} : R s t → t.tick = s.tick
  releases {s t} : R s t → t.params.releaseOnAssertFail = s.params.releaseOnAssertFail
  doubleFault {s t} : R s t → t.params.doubleFault = s.params.doubleFault
  first {s t} : R s t → t.xb.b0 = s.xb.b0 ∧ t.xb.b1 = s.xb.b1
  frame {s t} : R s t → t.xb.frame t.xn = s.xb.frame s.xn
  data {s t} : R s t → t.xb.data t.xn = s.xb.data s.xn
  response {s t} : R s t → t.response.frame t.xn = s.response.frame s.xn
  setCs {s t} (l) : R s t → R (s.setCs l) (t.setCs l)
  log {s t} (e) : R s t → R (s.log e) (t.log e)
  setPh {s t} (p) : R s t → R (s.setPh p) (t.setPh p)
  setPend {s t} (q) : R s t → R (s.setPend q) (t.setPend q)
  spent {s t} : R s t → R s.spent t.spent
  setXb {s t} (x) : R s t → R (s.setXb x) (t.setXb x)
  store {s t} (x v) : R s t → R (s.devWriteOk x v) (t.devWriteOk x v)
  take {s t} (x v) : R s t → R ((s.devWriteOk x v).setXb (takeResponse s.response s.xn s.xb))
    ((t.devWriteOk x v).setXb (takeResponse t.response t.xn t.xb))

namespace Simulates

variable {R : State → State → Prop} (hR : Simulates R)
include hR

theorem csLow {s t : State} (h : R s t) : RanRel R (csLow s) (csLow t) := by
  unfold Machine.csLow
  rw [hR.answer h, hR.tick h]
  cases s.answer with
  | ok => exact ⟨rfl, hR.spent (hR.log _ (hR.setCs _ h))⟩
  | fail e => exact ⟨rfl, hR.spent (hR.log _ (hR.setCs _ h))⟩
  | silent => exact h

theorem csHigh {s t : State} (h : R s t) : RanRel R (csHigh s) (csHigh t) := by
  unfold Machine.csHigh
  rw [hR.answer h, hR.tick h]
  cases s.answer with
  | ok => exact ⟨rfl, hR.spent (hR.log _ (hR.setCs _ h))⟩
  | fail e => exact ⟨rfl, hR.spent (hR.log _ (hR.setCs _ h))⟩
  | silent => exact h

theorem dataPhase (d : Bool) {s t : State} (h : R s t) : RanRel R (dataPhase d s) (dataPhase d t) := by
  obtain ⟨h0, h1⟩ := hR.first h
  cases d with
  | false =>
    show RanRel R (busWrite s) (busWrite t)
    unfold busWrite
    rw [hR.answer h, h0, h1]
    cases s.answer with
    | ok => exact ⟨rfl, hR.spent (hR.log _ (hR.store _ _ h))⟩
    | fail e => exact ⟨rfl, hR.spent (hR.log _ h)⟩
    | silent => exact h
  | true =>
    show RanRel R (busTransfer s) (busTransfer t)
    unfold busTransfer
    rw [hR.transferAnswer h, h0, h1, hR.frame h, hR.response h, hR.tick h]
    cases s.transferAnswer with
    | ok => exact ⟨rfl, hR.spent (hR.log _ (hR.take _ _ h))⟩
    | fail e => exact ⟨rfl, hR.spent (hR.log _ (hR.setXb _ h))⟩
    | silent => exact h

/-- Two transactions whose states are related once the first phase is set. -/
theorem xact (leg : Leg) (d : Bool) {s t : State} (h : R (s.setPh leg.low) (t.setPh leg.low)) :
    RanRel R (xact leg d s) (xact leg d t) := by
  unfold Machine.xact
  refine (hR.csLow h).bind fun r1 s t h => ?_
  cases r1 with
  | some p =>
    simp only [assertFailed, hR.releases h]
    split
    · exact (hR.csHigh (hR.setPh _ (hR.setPend _ h))).bind fun _ s t h => ⟨rfl, h⟩
    · exact ⟨rfl, h⟩
  | none =>
    refine (hR.dataPhase d (hR.setPh _ h)).bind fun r2 s t h => ?_
    refine (hR.csHigh (hR.setPh _ (hR.setPend _ h))).bind fun _ s t h => ⟨?_, h⟩
    rw [hR.doubleFault h, hR.data h]

theorem memRead (leg : Leg) (a : Addr) (n : FrameLen) {s t : State}
    (h : R ((s.setFrame (loadRead a n s.xb) n).setPh leg.low) ((t.setFrame (loadRead a n t.xb) n).setPh leg.low)) :
    RanRel R (memRead leg a n s) (memRead leg a n t) := hR.xact leg true h

theorem memWrite (leg : Leg) (a : Addr) (v : Byte) {s t : State}
    (h : R ((s.setFrame (loadWrite a v s.xb) .two).setPh leg.low)
      ((t.setFrame (loadWrite a v t.xb) .two).setPh leg.low)) :
    RanRel R (memWrite leg a v s) (memWrite leg a v t) :=
  (hR.xact leg false h).bind fun _ _ _ h => ⟨rfl, h⟩

end Simulates

/-! ### States that differ in the working registers, the responses and the host -/

/-- The frames in the two buffers are the same. -/
structure SameFrame (s t : State) : Prop where
  xn : t.xn = s.xn
  b0 : t.xb.b0 = s.xb.b0
  b1 : t.xb.b1 = s.xb.b1
  rest : s.xn = .seven → t.xb = s.xb

/-- The same machine with the same frame to exchange; latches, leftovers, responses and host may differ. -/
def SameRun (s t : State) : Prop := SameMachine s t ∧ SameFrame s t

end Sys2Proof.Laws

namespace Sys2Proof.Machine

open Sys2Proof.Laws

theorem SameMachine.devByte {s t : State} (h : SameMachine s t) (b : Bank) (a : Addr) :
    t.devByte b a = s.devByte b a := devByte_congr h.dSel h.mem b a

theorem SameMachine.dBank {s t : State} (h : SameMachine s t) : t.dBank = s.dBank := dBank_congr h.dSel h.params

theorem SameMachine.devPut {s t : State} (h : SameMachine s t) (b : Bank) (a : Addr) (v : Byte) :
    SameMachine (s.devPut b a v) (t.devPut b a v) := by
  by_cases ha : a = bankSelAddr
  · subst ha
    rw [devPut_sel, devPut_sel]
    exact ⟨h.params, h.curBank, h.ph, h.pend, h.rst, h.trace, h.cs, h.transport, h.script, h.grain, h.tick, rfl, h.mem⟩
  · rw [devPut_reg ha, devPut_reg ha]
    exact ⟨h.params, h.curBank, h.ph, h.pend, h.rst, h.trace, h.cs, h.transport, h.script, h.grain, h.tick, h.dSel,
      by simp only [h.mem]⟩

theorem SameMachine.devDrift {s t : State} (h : SameMachine s t) : SameMachine s.devDrift t.devDrift := by
  have key : ∀ (l : List DevPut) (s t : State), SameMachine s t →
      SameMachine (l.foldl (fun t p => t.devPut p.bank p.addr p.byte) s)
        (l.foldl (fun t p => t.devPut p.bank p.addr p.byte) t) := by
    intro l
    induction l with
    | nil => exact fun _ _ h => h
    | cons p l ih => exact fun s t h => ih _ _ (h.devPut _ _ _)
  unfold State.devDrift
  rw [h.transport, h.tick]
  cases s.transport with
  | free => exact key _ _ _ h
  | mock => exact h

theorem SameMachine.spent {s t : State} (h : SameMachine s t) : SameMachine s.spent t.spent := by
  have d := h.devDrift
  exact ⟨d.params, d.curBank, d.ph, d.pend, d.rst, d.trace, d.cs, d.transport, congrArg List.tail d.script, d.grain,
    congrArg (· + 1) d.tick, d.dSel, d.mem⟩

theorem SameMachine.store {s t : State} (h : SameMachine s t) (x v : Byte) :
    SameMachine (s.devWriteOk x v) (t.devWriteOk x v) := by
  unfold State.devWriteOk State.devStore
  rw [h.transport, h.dBank]
  cases s.transport with
  | free => exact h
  | mock =>
    show SameMachine (if _ then s else _) (if _ then t else _)
    split
    · exact h
    · exact h.devPut _ _ _

/-- An update of one field that both make. -/
theorem SameMachine.setCs {s t : State} (h : SameMachine s t) (l : Level) : SameMachine (s.setCs l) (t.setCs l) :=
  { h with cs := rfl }
theorem SameMachine.log {s t : State} (h : SameMachine s t) (e : Event) : SameMachine (s.log e) (t.log e) :=
  { h with trace := by simp [h.trace] }
theorem SameMachine.setPh {s t : State} (h : SameMachine s t) (p : Phase) : SameMachine (s.setPh p) (t.setPh p) :=
  { h with ph := rfl }
theorem SameMachine.setPend {s t : State} (h : SameMachine s t) (q : Pend) : SameMachine (s.setPend q) (t.setPend q) :=
  { h with pend := rfl }
theorem SameMachine.setXb {s t : State} (h : SameMachine s t) (x y : XBuf) : SameMachine (s.setXb x) (t.setXb y) :=
  { h with }
theorem SameMachine.setCurBank {s t : State} (h : SameMachine s t) (b : Bank) :
    SameMachine (s.setCurBank b) (t.setCurBank b) := { h with curBank := rfl }

/-- Whatever the buffers held, loading a frame makes the frames the same. -/
theorem SameMachine.loadRead {s t : State} {p : Phase} (h : SameMachine (s.setPh p) (t.setPh p)) (a : Addr)
    (n : FrameLen) :
    SameRun ((s.setFrame (loadRead a n s.xb) n).setPh p) ((t.setFrame (loadRead a n t.xb) n).setPh p) :=
  ⟨{ h with }, rfl, by cases n <;> rfl, by cases n <;> rfl, fun hn => by
    have : n = .seven := hn
    subst this; rfl⟩

theorem SameMachine.loadWrite {s t : State} {p : Phase} (h : SameMachine (s.setPh p) (t.setPh p)) (a : Addr)
    (v : Byte) :
    SameRun ((s.setFrame (loadWrite a v s.xb) .two).setPh p) ((t.setFrame (loadWrite a v t.xb) .two).setPh p) :=
  ⟨{ h with }, rfl, rfl, rfl, fun hn => absurd hn (by simp)⟩

/-- Ending a command with the same response leaves the same machine. -/
theorem SameMachine.endCommand {s t : State} (h : SameMachine s t) (r q : Response) :
    SameMachine (endCommand r s) (endCommand q t) :=
  { h with ph := rfl, pend := rfl }

end Sys2Proof.Machine

namespace Sys2Proof.Laws

open Sys2Proof.Machine

theorem SameRun.response {s t : State} (h : SameRun s t) : t.response = s.response := by
  obtain ⟨m, f⟩ := h
  unfold State.response State.mockResponse
  simp only [m.transport, m.tick, m.dBank, f.b0, f.xn, m.devByte]

theorem simulates_sameRun : Simulates SameRun where
  answer h := by unfold State.answer; rw [h.1.script, h.1.transport, h.1.tick]
  transferAnswer h := by
    have a : ∀ {s t}, SameRun s t → t.answer = s.answer := fun h => by
      unfold State.answer; rw [h.1.script, h.1.transport, h.1.tick]
    unfold State.transferAnswer State.pastMock
    rw [a h, h.1.transport, h.1.tick, h.2.b0, h.2.xn]
  tick h := h.1.tick
  releases h := by rw [h.1.params]
  doubleFault h := by rw [h.1.params]
  first h := ⟨h.2.b0, h.2.b1⟩
  frame {s t} h := by
    rw [h.2.xn]
    cases hn : s.xn with
    | two => simp [XBuf.frame, h.2.b0, h.2.b1]
    | seven => rw [h.2.rest hn]
  data {s t} h := by
    rw [h.2.xn]
    cases hn : s.xn with
    | two => simp [XBuf.data, h.2.b1]
    | seven => rw [h.2.rest hn]
  response h := by rw [h.response, h.2.xn]
  setCs _ h := ⟨h.1.setCs _, h.2.1, h.2.2, h.2.3, h.2.4⟩
  log _ h := ⟨h.1.log _, h.2.1, h.2.2, h.2.3, h.2.4⟩
  setPh _ h := ⟨h.1.setPh _, h.2.1, h.2.2, h.2.3, h.2.4⟩
  setPend _ h := ⟨h.1.setPend _, h.2.1, h.2.2, h.2.3, h.2.4⟩
  spent h := ⟨h.1.spent, by simp [h.2.xn], by simp [h.2.b0], by simp [h.2.b1], by simpa using h.2.rest⟩
  setXb _ h := ⟨h.1.setXb _ _, h.2.1, rfl, rfl, fun _ => rfl⟩
  store x v h := ⟨h.1.store x v, by simp [h.2.xn], by simp [h.2.b0], by simp [h.2.b1], by simpa using h.2.rest⟩
  take {s t} x v h := by
    refine ⟨(h.1.store x v).setXb _ _, ?_⟩
    rw [h.response, h.2.xn]
    cases hn : s.xn with
    | two => exact ⟨by simp [h.2.xn], rfl, rfl, by simp [hn]⟩
    | seven => exact ⟨by simp [h.2.xn], rfl, rfl, fun _ => rfl⟩

end Sys2Proof.Laws
end

