-- ==== Sys2Proof/Tests/Slice0.lean ====
section
/-! SUPPORT. The model's own tests: ill-formed words that each check refuses, words written out bit by bit from the
encoding of spec/30_encoding.md, single commands with the results of spec/95_test_vectors.md, and for every statement
with hypotheses a state that meets them. -/

namespace Sys2Proof.Tests

open Sys2Proof.Machine

/-! ### WellFormed: an ill-formed word for each check (VDEC) -/

theorem test_wf_reserved_op : (CmdFields.mk 0 0 0 0 0 0).opAllowed = false := by decide
theorem test_wf_z1 : (unpackFields 0x240000).z1Zero = false := by decide
theorem test_wf_z0 : (unpackFields 0x408000).z0Zero = false := by decide
theorem test_wf_unused_bank : (unpackFields 0x410000).unusedZero = false := by decide
theorem test_wf_unused_addr : (unpackFields 0x200100).unusedZero = false := by decide
theorem test_wf_unused_data : (unpackFields 0xE00001).unusedZero = false := by decide
theorem test_wf_legal : (unpackFields 0xA37FFF).wellFormed = true := by decide
theorem test_wf_refuses :
    [0x000000, 0x1FFFFF, 0x300000, 0x400001, 0x610000, 0x800001, 0xA08000, 0xC10000, 0xFFFFFF].all
      (fun w => !(unpackFields (BitVec.ofNat 24 w)).wellFormed) = true := by decide

/-! ### Decoding: op, z1, bank, z0, addr, data written out bit by bit (R90, R105) -/

theorem test_decode_selb : decode 0b001_000_11_0_0000000_00000000 = .cmd (.selb 3) := by decide
theorem test_decode_rdr : decode 0b010_000_00_0_1111111_00000000 = .cmd (.rdr 0x7F) := by decide
theorem test_decode_wrr : decode 0b011_000_00_0_0000110_10000000 = .cmd (.wrr 0x06 0x80) := by decide
theorem test_decode_rdb : decode 0b100_000_11_0_0010000_00000000 = .cmd (.rdb 3 0x10) := by decide
theorem test_decode_wrb : decode 0b101_000_10_0_0000000_00001010 = .cmd (.wrb 2 0x00 0x0A) := by decide
theorem test_decode_rdv : decode 0b110_000_00_0_0101101_00000000 = .cmd (.rdv 0x2D) := by decide
theorem test_decode_rdvb : decode 0b111_000_00_0_0110011_00000000 = .cmd (.rdvb 0 0x33) := by decide
theorem test_encode_wrb : encode (.wrb 3 0x7F 0xFF) = 0xA37FFF := by decide
theorem test_decode_illegal_op : decode 0 = .illegal .reservedOp := by decide
theorem test_decode_illegal_z0 : decode 0xA08000 = .illegal .z0NotZero := by decide
theorem test_table_word : decodeTableWord 24 0xE37F00 = some (.rdvb 3 0x7F) := by decide

/-! ### Single commands on the mock (spec/95_test_vectors.md) -/

/-- The mock with the registers of VRAW, VBNK and the block reads, selected to the bank code `d`; shadow `b`. -/
def mock (b : Bank) (d : Byte) (script : List Answer) : State :=
  { State.reset with
    transport := .mock, curBank := b, dSel := d, script := script,
    mem := [(0x00, 0xEA), (0x34, 0x10), (0x35, 0xFF), (0x36, 0xF0), (0x37, 0x80), (0x17A, 0x11), (0x17B, 0x22),
      (0x17C, 0x33), (0x17D, 0x44), (0x17E, 0x55), (0x180, 0x55), (0x190, 0x77)] }

/-- The same with another policy. -/
def skipping (s : State) : State := { s with params := { s.params with skipRedundant := true } }

/-- The same with BANK_SEL_SHIFT 4. -/
def shifted (s : State) : State := { s with params := { s.params with bankSelShift := 4 } }

/-- The unconstrained transport with the answers `script`. -/
def free (script : List Answer) : State := { State.reset with script := script }

/-- The mock's registers are in canonical form, and so are those of reset. -/
theorem test_mock_wf : Memory.wf (mock 0 0 []).mem = true := by decide
theorem test_reset_wf : Memory.wf State.reset.mem = true := by decide

/-- VSEL4. -/
theorem test_selb :
    (afterCommand (.selb 3) (mock 0 0 [])).trace = [.low, .write [0x7F, 0x03], .high] ∧
    (afterCommand (.selb 3) (mock 0 0 [])).curBank = 3 := by decide
/-- VBNK14: the failed select leaves the mock. VBNK21 the same of `WRB`. -/
theorem test_select_write_fails :
    (afterCommand (.rdb 3 0x10) (mock 0 0 [.ok, .fail 1])).dSel = 0x00 ∧
    (afterCommand (.wrb 2 0x10 0xAB) (mock 0 0 [.ok, .fail 1])).devByte 2 0x10 = 0x00 := by decide
/-- VBNK22, VBNK23: the access `write` fails; its deassertion alone fails. -/
theorem test_wrb_access_fails :
    (afterCommand (.wrb 2 0x10 0xAB) (mock 0 0 [.ok, .ok, .ok, .ok, .fail 2])).devByte 2 0x10 = 0x00 ∧
    (afterCommand (.wrb 2 0x10 0xAB) (mock 0 0 [.ok, .ok, .ok, .ok, .ok, .fail 2])).devByte 2 0x10 = 0xAB := by decide
/-- VSEL13: the device has switched, the shadow has not. -/
theorem test_selb_release_fails :
    (afterCommand (.selb 1) (mock 0 0 [.ok, .ok, .fail 9])).curBank = 0 ∧
    (afterCommand (.selb 1) (mock 0 0 [.ok, .ok, .fail 9])).dSel = 0x01 := by decide
/-- VRAW2: the stale bank answers. -/
theorem test_rdr_stale : (afterCommand (.rdr 0x00) (mock 0 3 [])).rsps = [⟨.ok, [0x55]⟩] := by decide
/-- VRAW7: the byte read is discarded. -/
theorem test_rdr_release_fails :
    (afterCommand (.rdr 0x06) (mock 0 0 [.ok, .ok, .fail 1])).rsps = [⟨.pin ⟨1⟩, []⟩] := by decide
/-- VRAW10a: the write lands in the device's bank. -/
theorem test_wrr :
    (afterCommand (.wrr 0x06 0x80) (mock 0 1 [])).devByte 1 0x06 = 0x80 ∧
    (afterCommand (.wrr 0x06 0x80) (mock 0 1 [])).devByte 0 0x06 = 0x00 := by decide
/-- VRAW11: the device switches, the shadow does not. -/
theorem test_wrr_bank_select :
    (afterCommand (.wrr 0x7F 0x02) (mock 0 0 [])).dBank = 2 ∧
    (afterCommand (.wrr 0x7F 0x02) (mock 0 0 [])).curBank = 0 := by decide
/-- VRAW13: the sixth byte is the bank-select register. -/
theorem test_rdv :
    (afterCommand (.rdv 0x7A) (mock 2 2 [])).rsps = [⟨.ok, [0x11, 0x22, 0x33, 0x44, 0x55, 0x02]⟩] := by decide
/-- R65, R71 at the last base the mock serves: the sixth byte is the bank-select register, the bank code just written. -/
theorem test_rdvb_sixth :
    (afterCommand (.rdvb 1 0x7A) (shifted (mock 0 0 []))).rsps = [⟨.ok, [0, 0, 0, 0, 0, 0x10]⟩] := by decide
/-- VRAW14: no data. -/
theorem test_rdv_fails : (afterCommand (.rdv 0x2D) (mock 0 0 [.ok, .fail 1])).rsps = [⟨.comm ⟨1⟩, []⟩] := by decide
/-- VBNK8: the bank code just written is read back. -/
theorem test_rdb_shifted : (afterCommand (.rdb 2 0x7F) (shifted (mock 0 0 []))).rsps = [⟨.ok, [0x20]⟩] := by decide
/-- VBNK18: the select stays done. -/
theorem test_rdb_access_fails :
    (afterCommand (.rdb 3 0x10) (mock 0 0 [.ok, .ok, .ok, .ok, .fail 2])).rsps = [⟨.comm ⟨2⟩, []⟩] ∧
    (afterCommand (.rdb 3 0x10) (mock 0 0 [.ok, .ok, .ok, .ok, .fail 2])).curBank = 3 := by decide
/-- VBNK10. -/
theorem test_wrb :
    (afterCommand (.wrb 2 0x00 0x0A) (mock 0 0 [])).devByte 2 0x00 = 0x0A ∧
    (afterCommand (.wrb 2 0x00 0x0A) (mock 0 0 [])).devByte 0 0x00 = 0xEA := by decide
/-- VBNK11: shadow 1, device 3. -/
theorem test_wrb_bank_select :
    (afterCommand (.wrb 1 0x7F 0x03) (mock 0 0 [])).curBank = 1 ∧
    (afterCommand (.wrb 1 0x7F 0x03) (mock 0 0 [])).dSel = 0x03 := by decide
/-- VBNK12. -/
theorem test_rdvb :
    (afterCommand (.rdvb 0 0x33) (mock 2 2 [])).rsps = [⟨.ok, [0x00, 0x10, 0xFF, 0xF0, 0x80, 0x00]⟩] := by decide
/-- VBNK24. -/
theorem test_rdvb_access_fails :
    (afterCommand (.rdvb 0 0x33) (mock 2 2 [.ok, .ok, .ok, .ok, .fail 2])).rsps = [⟨.comm ⟨2⟩, []⟩] ∧
    (afterCommand (.rdvb 0 0x33) (mock 2 2 [.ok, .ok, .ok, .ok, .fail 2])).dSel = 0x00 := by decide
/-- The worked rows of `vec3`. -/
theorem test_vec3 :
    vec3 .big 0x00 0x10 0xFF 0xF0 0x80 0x00 = ⟨16, -16, -32768⟩ ∧
    vec3 .little 0x7F 0xFF 0x80 0x00 0x00 0x01 = ⟨-129, 128, 256⟩ := by decide

/-! ### Witnesses: states that meet the hypotheses of the statements

`ready` is out of reset, in IDLE, with one word to present. -/

def ready (w : CmdWord) : State := (mock 0 0 []).present w

theorem test_witness_ready (w : CmdWord) :
    (ready w).rst = false ∧ (ready w).ph = .idle ∧ (ready w).host.stopped = false ∧
    (ready w).host.prog[(ready w).host.next]? = some w := ⟨rfl, rfl, rfl, rfl⟩

/-- RstResetsTheBlockAndNothingElse. -/
theorem test_witness_rst : ({ mock 3 3 [] with rst := true, ph := .aData } : State).rst = true := by decide

/-- IdleBlockWaitsForCommand: the state after reset. -/
theorem test_witness_idle :
    State.reset.rst = false ∧ State.reset.ph = .idle ∧ State.reset.presented = none := by decide

/-- StepRunsThePresentedCommand, in either grain; StepsReachTheCommandRule. -/
theorem test_witness_step :
    decode 0x831000 = .cmd (.rdb 3 0x10) ∧ (ready 0x831000).presented = some 0x831000 ∧
    (ready 0x831000).grain = .invocation ∧ ({ ready 0x831000 with grain := .command } : State).grain = .command := by
  decide

/-- A step of grain `invocation` accepts and waits in S_LOW; the table word placed by the host runs whole. -/
theorem test_step_grain :
    (∃ t, step (ready 0x831000) = .next t ∧ t.ph = .sLow ∧ t.rsps = []) ∧
    (∃ t, step ((mock 0 0 []).withFetchWord 24 0x400600) = .next t ∧ t.ph = .idle ∧ t.rsps = [⟨.ok, [0x00]⟩]) :=
  ⟨⟨_, rfl, rfl, rfl⟩, ⟨_, rfl, by decide, by decide⟩⟩

/-- StepContinuesTheCommandInProgress. -/
theorem test_witness_in_progress :
    ({ mock 0 0 [] with ph := .sData } : State).rst = false ∧ ({ mock 0 0 [] with ph := .sData } : State).ph ≠ .idle := by
  decide

/-- IllegalWordIsAnsweredWithoutEffect: a host that stops at a failure, and one that goes on. -/
theorem test_witness_illegal :
    decode 0x1FFFFF = .illegal .z1NotZero ∧ (ready 0x1FFFFF).presented = some 0x1FFFFF ∧
    (ready 0x1FFFFF).host.goesOn = false ∧ ((ready 0x1FFFFF).host.receive ⟨.illegal, []⟩).stopped = true ∧
    ({ (ready 0x1FFFFF).host with goesOn := true }.receive ⟨.illegal, []⟩).stopped = false := by decide

/-- StepKeepsTheInvariant: a block waiting in S_LOW of `SELB 2` meets the invariant, and steps. -/
theorem test_witness_inv :
    Inv { mock 0 0 [] with
      ph := .sLow, cOp := 1, cBank := 2, xb := ⟨0x7F, 2, 0, 0, 0, 0, 0⟩, xn := .two, pend := .none } :=
  ⟨by decide, by decide, by decide, fun h => absurd h (by decide), by decide, by decide⟩

/-- The mock answers ok to every invocation. -/
theorem test_witness_allOk (b : Bank) (d : Byte) (n : Nat) : (mock b d []).AllOk n := fun _ _ => rfl

/-- The statements of RDR, WRR, RDV need no more; RDV at the last base the mock serves and the first it does not, which
the unconstrained transport serves. -/
theorem test_witness_raw :
    (mock 0 0 []).AllOk 3 ∧ (mock 0 0 []).transport = .mock ∧ (mock 0 0 []).Served (.rdv 0x7A) ∧
    ¬ (mock 0 0 []).Served (.rdv 0x7B) ∧ (free [.ok, .ok, .ok]).Served (.rdv 0x7B) ∧
    ∀ k < 3, (free [.ok, .ok, .ok]).answerAt k = .ok :=
  ⟨test_witness_allOk 0 0 3, rfl, fun _ => rfl, fun h => absurd (h rfl) (by decide), nofun, by decide⟩

/-- BlockReadIsNotChecked: past the end, on the mock. -/
theorem test_witness_past_end :
    (mock 0 0 []).answerAt 0 = .ok ∧ (mock 0 0 []).skips 1 = false ∧ (mock 0 0 []).AllOk 4 ∧
    readsPastEnd (.rdvb 1 0x7B) = true ∧ readsPastEnd (.rdvb 1 0x7A) = false :=
  ⟨by decide, by decide, test_witness_allOk 0 0 4, by decide, by decide⟩

/-- UnconstrainedTransportHidesTheDevice. -/
theorem test_witness_free :
    (free []).transport = .free ∧ (∃ t, exec (.rdr 0x00) (free []) = .next t) ∧ (free []).rst = false :=
  ⟨rfl, ⟨_, rfl⟩, rfl⟩

/-- SelbWritesAndRecordsTheBank, RdbSelectsThenReads, WrbSelectsThenWrites, RdvbSelectsThenReadsSix: not skipped, also
with the shadow already at the bank. -/
theorem test_witness_select :
    (mock 3 3 []).skips 3 = false ∧ (mock 3 3 []).AllOk 6 ∧ (mock 3 3 []).transport = .mock ∧
    (mock 3 3 []).Served (.rdvb 3 0x7A) ∧ ¬ (mock 3 3 []).Served (.rdvb 3 0x7B) :=
  ⟨by decide, test_witness_allOk 3 3 6, rfl, fun _ => rfl, fun h => absurd (h rfl) (by decide)⟩

/-- SkippedSelbDoesNothing, SkippedBankedCommandIsTheRawOne, the first clause of BankFsmTransitions. -/
theorem test_witness_skip :
    (skipping (mock 2 1 [])).skips 2 = true ∧ (skipping (mock 2 1 [])).params.skipRedundant = true ∧
    (skipping (mock 2 1 [])).curBank = 2 := by decide

/-- BankFsmTransitions, second clause: the other bank under SKIP_REDUNDANT. -/
theorem test_witness_fsm_write :
    ¬((skipping (mock 2 2 [])).params.skipRedundant = true ∧ (skipping (mock 2 2 [])).curBank = 3) ∧
    (skipping (mock 2 2 [])).AllOk 3 := ⟨by decide, fun _ _ => rfl⟩

/-- BankFsmTransitions, the last clause: a bank-select recorded by a step of the sequencer, and by a whole command. -/
theorem test_witness_fsm_step :
    (∃ t, step { mock 0 0 [] with ph := .sHigh, cOp := 1, cBank := 2 } = .next t ∧ t.curBank = 2) ∧
    (∃ t, step ((mock 0 0 []).withFetchWord 24 0x831000) = .next t ∧ t.curBank = 3) :=
  ⟨⟨_, rfl, by decide⟩, ⟨_, rfl, by decide⟩⟩

/-- BankFsmTransitions, third clause, MockWriteFailureLeavesTheDevice, second and last, and FailedSelectEndsTheCommand: each invocation of the select failing. -/
theorem test_witness_select_fails :
    ∀ scr ∈ [[Answer.fail 1], [.ok, .fail 1], [.ok, .ok, .fail 1]],
      (mock 0 0 scr).skips 1 = false ∧ (∀ k < 3, (mock 0 0 scr).answerAt k ≠ .silent) ∧
      ¬ (∀ k < 3, (mock 0 0 scr).answerAt k = .ok) ∧ commandBank (.rdb 1 0x10) = some 1 := by decide

/-- The statuses of those: PIN of the assertion, COMM, PIN of the deassertion; and both failing (R63). -/
theorem test_xactStatus :
    (mock 0 0 [.fail 7]).xactStatus 0 = some (.pin ⟨7⟩) ∧ (mock 0 0 [.ok, .fail 7]).xactStatus 0 = some (.comm ⟨7⟩) ∧
    (mock 0 0 [.ok, .ok, .fail 7]).xactStatus 0 = some (.pin ⟨7⟩) ∧
    (mock 0 0 [.ok, .fail 7, .fail 8]).xactStatus 0 = some (.comm ⟨7⟩) := by decide

/-- FailedAccessKeepsTheSelect, MockWriteFailureLeavesTheDevice, third clause: each invocation of the access failing. -/
theorem test_witness_access_fails :
    ∀ scr ∈ [[Answer.ok, .ok, .ok, .fail 1], [.ok, .ok, .ok, .ok, .fail 1], [.ok, .ok, .ok, .ok, .ok, .fail 1]],
      (mock 0 0 scr).skips 3 = false ∧ (∀ k < 3, (mock 0 0 scr).answerAt k = .ok) ∧
      (∀ k < 6, (mock 0 0 scr).answerAt k ≠ .silent) ∧ ¬ (∀ k < 6, (mock 0 0 scr).answerAt k = .ok) ∧
      commandBank (.rdb 3 0x10) = some 3 ∧ Instr.rdb 3 0x10 ≠ .selb 3 ∧ readsPastEnd (.rdb 3 0x10) = false := by decide

/-- RawCommandReportsTheFailingCall: a state for each clause; MockWriteFailureLeavesTheDevice, first clause, with the
select of a `WRB` skipped below. -/
theorem test_witness_reports :
    commandBank (.wrr 0x06 0x80) = none ∧ (mock 0 0 []).transport = .mock ∧
    ((mock 0 0 [.fail 1]).answerAt 0 = .fail 1 ∧ (mock 0 0 [.fail 1]).params.releaseOnAssertFail = true ∧
      (mock 0 0 [.fail 1]).answerAt 1 ≠ .silent) ∧
    ((mock 0 0 [.ok, .fail 1]).answerAt 0 = .ok ∧ (mock 0 0 [.ok, .fail 1]).answerAt 1 = .fail 1 ∧
      (mock 0 0 [.ok, .fail 1]).answerAt 2 = .ok) ∧
    ((mock 0 0 [.ok, .ok, .fail 1]).answerAt 1 = .ok ∧ (mock 0 0 [.ok, .ok, .fail 1]).answerAt 2 = .fail 1) ∧
    ((mock 0 0 [.ok, .fail 1, .fail 2]).answerAt 1 = .fail 1 ∧
      (mock 0 0 [.ok, .fail 1, .fail 2]).answerAt 2 = .fail 2) := by decide

/-- RawCommandReportsTheFailingCall, the clause without RELEASE_ON_ASSERT_FAIL. -/
theorem test_witness_held :
    ({ mock 0 0 [.fail 1] with params := { State.reset.params with releaseOnAssertFail := false } } :
      State).params.releaseOnAssertFail = false ∧ (mock 0 0 [.fail 1]).answerAt 0 = .fail 1 := by decide

/-- MockWriteFailureLeavesTheDevice, first clause: a `WRB` whose select is skipped. -/
theorem test_witness_skipped_write :
    (skipping (mock 2 1 [.ok, .fail 1])).skips 2 = true ∧ (skipping (mock 2 1 [.ok, .fail 1])).transport = .mock ∧
    (skipping (mock 2 1 [.ok, .fail 1])).answerAt 0 = .ok ∧ (skipping (mock 2 1 [.ok, .fail 1])).answerAt 1 = .fail 1 ∧
    (skipping (mock 2 1 [.ok, .ok, .fail 1])).answerAt 2 = .fail 1 := by decide

/-- UnansweredCommandWaitsForEver: each of the three invocations unanswered, on the failed-assertion path too, for the
first transaction; and for the access after a select. -/
theorem test_witness_stall :
    (mock 0 0 [.silent]).stall 0 = some Leg.low ∧ (mock 0 0 [.ok, .silent]).stall 0 = some Leg.data ∧
    (mock 0 0 [.ok, .ok, .silent]).stall 0 = some Leg.high ∧ (mock 0 0 [.ok, .fail 1, .silent]).stall 0 = some Leg.high ∧
    (mock 0 0 [.fail 1, .silent]).stall 0 = some Leg.high ∧
    (mock 0 0 [.ok, .ok, .ok, .silent]).stall 3 = some Leg.low ∧
    (mock 0 0 [.ok, .ok, .ok, .ok, .silent]).stall 3 = some Leg.data ∧
    (mock 0 0 [.ok, .ok, .ok, .ok, .ok, .silent]).stall 3 = some Leg.high :=
  ⟨rfl, rfl, rfl, rfl, rfl, rfl, rfl, rfl⟩

/-- UnansweredCommandWaitsForEver, the other premises of its clauses. -/
theorem test_witness_waits :
    commandBank (.rdr 0x00) = none ∧ (mock 0 0 [.silent]).rst = false ∧ (mock 0 0 [.silent]).answerAt 0 = .silent ∧
    commandBank (.wrb 1 0x10 0x01) = some 1 ∧ Instr.wrb 1 0x10 0x01 ≠ .selb 1 ∧ (mock 0 0 [.silent]).skips 1 = false ∧
    (skipping (mock 1 1 [.silent])).skips 1 = true ∧ (skipping (mock 1 1 [.silent])).stall 0 = some Leg.low ∧
    (∀ k < 3, (mock 0 0 [.ok, .ok, .ok, .silent]).answerAt k = .ok) ∧ readsPastEnd (.wrb 1 0x10 0x01) = false :=
  ⟨rfl, rfl, rfl, rfl, by decide, rfl, rfl, rfl, by decide, rfl⟩

/-- The statements about every behaviour of the transport (frames, shapes, responses, chip-select): a command that has
ended, and one that has not. -/
theorem test_witness_any :
    (∃ t, exec (.wrr 0x7F 0x01) (mock 0 0 []) = .next t ∧ t.ph = .idle) ∧
    (∃ t, exec (.rdr 0x00) (mock 0 0 [.silent]) = .next t ∧ t.ph ≠ .idle) ∧
    (∃ t, exec (.wrb 1 0x10 0x01) (mock 0 0 []) = .next t ∧ t.ph = .idle) ∧
    (∃ t, exec (.rdv 0x2D) (mock 0 0 []) = .next t) ∧ commandBank (.rdv 0x2D) = none :=
  ⟨⟨_, rfl, by decide⟩, ⟨_, rfl, by decide⟩, ⟨_, rfl, by decide⟩, ⟨_, rfl⟩, rfl⟩

/-- CurBankChangesOnlyBySuccessfulSelect. -/
theorem test_witness_bank_changes :
    ∃ t, exec (.rdb 3 0x10) (mock 0 0 []) = .next t ∧ t.curBank ≠ (mock 0 0 []).curBank := ⟨_, rfl, by decide⟩

/-- StoresTouchOnlyTheirTarget and WrbTouchesOnlyItsTargets: a register outside the targets. -/
theorem test_witness_other_register :
    regKey 1 0x10 ≠ regKey (mock 0 0 []).dBank 0x10 ∧ regKey 1 0x10 ≠ regKey 0 0x7F ∧ (0x10 : Addr) ≠ 0x7F ∧
    (∃ t, exec (.selb 1) (mock 0 0 []) = .next t) := ⟨by decide, by decide, by decide, _, rfl⟩

/-- WrbTouchesOnlyItsTargets: the select of `WRB 2, 0x10, 0xAB` leaves the device in bank 2, so that (1, 0x10) is outside
the target. -/
theorem test_witness_wrb :
    ∀ (d : List Byte) (u : State), sel 2 (latch (.wrb 2 0x10 0xAB) (mock 0 0 [])) = .done (.ok d) u →
      regKey 1 0x10 ≠ regKey u.dBank 0x10 := by
  intro d u h
  cases h
  decide

/-- SequencerRefinesTheCommandRules, EveryCommandEndsInSevenSteps. -/
theorem test_witness_sequencer :
    decode 0x831000 = .cmd (.rdb 3 0x10) ∧ readsPastEnd (.rdb 3 0x10) = false ∧
    ∀ k < 6, (mock 0 0 []).answerAt k ≠ .silent := by decide

/-- The statements on the mock over several commands: under always-write with a stale shadow, and under SKIP_REDUNDANT
with shadow and device agreeing. -/
theorem test_witness_mock :
    (mock 0 3 []).params.skipRedundant = false ∧ (skipping (mock 2 2 [])).dBank = (skipping (mock 2 2 [])).curBank ∧
    (∀ k < 36, (mock 0 3 []).answerAt k = .ok) ∧ (∀ k < 36, (skipping (mock 2 2 [])).answerAt k = .ok) ∧
    (0x79 : Addr).toNat + 5 ≤ 0x7E ∧ (0x7E : Addr) ≠ 0x7F ∧ (1 : Bank) ≠ 2 := by decide

/-- IdentityCheckComparesWhoAmI: a part that answers 0xEA and one that does not. -/
theorem test_witness_identity :
    (mock 0 0 []).devByte 0 0x00 = 0xEA ∧ ({ mock 0 0 [] with mem := [] } : State).devByte 0 0x00 ≠ 0xEA ∧
    (identityCheck { mock 0 0 [] with mem := [] }).1 = .error .invalidId := by decide

/-- A configuration, were 0x00 the value that disables interrupts and these the banks. Its write at 0x11 of another bank
is one of another register. -/
def someConfig : SetupConfig where
  unknown := { fifoBank := 3, irqBank := fun _ => 0, off := fun _ v => v == 0 }
  commands := [.wrr 0x10 0, .wrr 0x11 0, .selb 2, .wrr 0x11 0x07, .wrb 0 0x12 0, .wrr 0x13 0, .rdr 0x67, .wrb 3 0x67 0x01]
  known := by decide

/-- `SETUP` with it succeeds on the part that answers 0xEA. -/
theorem test_witness_setup : (facadeSetup someConfig (mock 0 0 [])).1 = .ok () := by decide

/-- What a configuration may not be: without FIFO-enable-2, with a write that leaves an interrupt on, or with a block
read. -/
theorem test_setup_known :
    setupKnown someConfig.unknown [] = false ∧
    setupKnown someConfig.unknown (.wrr 0x12 1 :: someConfig.commands) = false ∧
    setupKnown someConfig.unknown (someConfig.commands.dropLast ++ [.wrb 2 0x67 0x01]) = false ∧
    setupKnown someConfig.unknown (.rdv 0x2D :: someConfig.commands) = false := by decide

/-- Raw 0 gives 21 - 20/333.87, in round-to-nearest 20.940096, the bits 0x41A78551 (calculated apart from the model). -/
theorem test_temp32 : temp32 .nearestEven .steps32 0 = ⟨0x41A78551⟩ ∧ temp32 .nearestEven .exact 20 = ⟨0x41A80000⟩ := by
  decide

/-- ByteAssembliesFollowTheirOrder: both signs at the boundary. -/
theorem test_witness_axis :
    axisValue .big 0x7F 0xFF = 32767 ∧ axisValue .big 0x80 0x00 = -32768 ∧ axisValue .little 0xFF 0x7F = 32767 ∧
    axisValue .little 0x00 0x80 = -32768 := by decide

end Sys2Proof.Tests
end

section
/-! SUPPORT. The statements of 00_scope.md. `step_run` says once everything a step of the machine can do; each of its
cases keeps what is fixed for the life of the block (`SameSetting`). -/

namespace Sys2Proof.Proofs

open Sys2Proof.Machine Sys2Proof.Laws

/-! ### Everything a step can do -/

/-- The branches of a step with a next state, one constructor per branch. -/
inductive StepRun (s : State) : State → Prop where
  | reset (hr : s.rst = true) : StepRun s (assertRst s)
  | nothingPresented (hr : s.rst = false) (hp : s.ph = .idle) (hw : s.presented = none) : StepRun s s
  | accepted (w : CmdWord) (hr : s.rst = false) (hp : s.ph = .idle) (hw : s.presented = some w)
      (hg : s.grain = .invocation) : StepRun s (accept w s.taken)
  | ran (w : CmdWord) (i : Instr) (hr : s.rst = false) (hp : s.ph = .idle) (hw : s.presented = some w)
      (hg : s.grain = .command) (hd : decode w = .cmd i) {t : State} (he : exec i s.taken = .next t) : StepRun s t
  | answeredIllegal (w : CmdWord) (r : IllegalReason) (hr : s.rst = false) (hp : s.ph = .idle)
      (hw : s.presented = some w) (hg : s.grain = .command) (hd : decode w = .illegal r) :
      StepRun s (raise .illegal s.taken)
  | continued (hr : s.rst = false) (hp : s.ph ≠ .idle) : StepRun s (seqStep s)

theorem step_run {s t : State} (h : step s = .next t) : StepRun s t := by
  unfold step at h
  split at h
  next hr => cases h; exact .reset hr
  next hr =>
    rw [Bool.not_eq_true] at hr
    split at h
    next hp =>
      split at h
      next hw => cases h; exact .nothingPresented hr hp hw
      next w hw =>
        split at h
        next hg => cases h; exact .accepted w hr hp hw hg
        next hg =>
          split at h
          next i hd => exact .ran w i hr hp hw hg hd h
          next r hd => cases h; exact .answeredIllegal w r hr hp hw hg hd
    next hp => cases h; exact .continued hr hp

/-! ### What is fixed for the life of the block -/

/-- The parameters (R8), the kinds of environment and host (R34, R205) and the step granularity (log 15) agree. -/
structure SameSetting (s t : State) : Prop where
  params : t.params = s.params
  transport : t.transport = s.transport
  goesOn : t.host.goesOn = s.host.goesOn
  grain : t.grain = s.grain

theorem SameSetting.refl (s : State) : SameSetting s s := ⟨rfl, rfl, rfl, rfl⟩

theorem SameSetting.trans {s t u : State} (h : SameSetting s t) (k : SameSetting t u) : SameSetting s u :=
  ⟨k.params.trans h.params, k.transport.trans h.transport, k.goesOn.trans h.goesOn, k.grain.trans h.grain⟩

theorem sameSetting_of_bodyKeeps {s t : State} (h : BodyKeeps s t) : SameSetting s t :=
  ⟨h.params, h.transport, congrArg HostState.goesOn h.host, h.grain⟩

theorem endCommand_setting (r : Response) (s : State) : SameSetting s (endCommand r s) :=
  ⟨rfl, rfl, receive_goesOn r s.host, rfl⟩

theorem raise_setting (e : Exc) (s : State) : SameSetting s (raise e s) := by
  cases e with
  | comm c => exact endCommand_setting _ s
  | pin p => exact endCommand_setting _ s
  | illegal => exact ⟨rfl, rfl, receive_goesOn _ s.host, rfl⟩

/-- A command, ended or waiting. -/
theorem exec_setting {i : Instr} {s t : State} (h : exec i s = .next t) : SameSetting s t := by
  have hb := sameSetting_of_bodyKeeps ((latch_body i s).trans (commandBody_body i (latch i s)))
  obtain ⟨r, u, e, rfl⟩ | e := exec_cases h <;> rw [e] at hb
  · exact hb.trans (endCommand_setting _ u)
  · exact hb

/-! ### The sequencer's rows -/

theorem loadAccessFrame_setting (s : State) : SameSetting s s.loadAccessFrame := by
  unfold State.loadAccessFrame
  split_ifs <;> exact ⟨rfl, rfl, rfl, rfl⟩

/-- The access frame is loaded and its transaction begins (rows T3, T6c). -/
theorem beginAccess_setting (s : State) : SameSetting s (s.loadAccessFrame.setPh .aLow) :=
  (loadAccessFrame_setting s).trans ⟨rfl, rfl, rfl, rfl⟩

/-- Rows T0 to T3. -/
theorem accept_setting (w : CmdWord) (s : State) : SameSetting s (accept w s) := by
  unfold accept
  split
  · exact raise_setting _ s
  · next i _ =>
    have hl : SameSetting s (latch i s) := ⟨rfl, rfl, rfl, rfl⟩
    refine hl.trans ?_
    dsimp only
    split
    · exact ⟨rfl, rfl, rfl, rfl⟩
    · split
      · exact endCommand_setting _ _
      · exact beginAccess_setting _

theorem lowOk_setting (s : State) : SameSetting s (lowOk s) := by constructor <;> simp [lowOk]

theorem lowFail_setting (e : Nat) (s : State) : SameSetting s (lowFail e s) := by constructor <;> simp [lowFail]

theorem highOk_setting (s : State) : SameSetting s (highOk s) := by constructor <;> simp [highOk]

theorem highFail_setting (e : Nat) (s : State) : SameSetting s (highFail e s) := by constructor <;> simp [highFail]

theorem dataOk_setting (d : Bool) (s : State) : SameSetting s (dataOk d s) := by
  cases d <;> constructor <;> simp [dataOk]

theorem dataFail_setting (d : Bool) (e : Nat) (s : State) : SameSetting s (dataFail d e s) := by
  cases d <;> constructor <;> simp [dataFail]

/-- Rows T4 and T7. -/
theorem seqLow_setting (leg : Leg) (s : State) : SameSetting s (seqLow leg s) := by
  obtain h | h | ⟨e, h⟩ | ⟨e, h⟩ := seqLow_run leg s <;> rw [h]
  · exact .refl s
  · exact (lowOk_setting s).trans ⟨rfl, rfl, rfl, rfl⟩
  · exact (lowFail_setting e s).trans ⟨rfl, rfl, rfl, rfl⟩
  · exact (lowFail_setting e s).trans (raise_setting _ _)

/-- Rows T5 and T8. -/
theorem seqData_setting (leg : Leg) (d : Bool) (s : State) : SameSetting s (seqData leg d s) := by
  obtain h | h | ⟨e, h⟩ := seqData_run leg d s <;> rw [h]
  · exact .refl s
  · exact (dataOk_setting d s).trans ⟨rfl, rfl, rfl, rfl⟩
  · exact (dataFail_setting d e s).trans ⟨rfl, rfl, rfl, rfl⟩

/-- Rows T6 and T9, for a continuation `ok` that keeps the setting. -/
theorem seqHigh_setting {ok : State → State} (hok : ∀ t, SameSetting t (ok t)) (s : State) :
    SameSetting s (seqHigh ok s) := by
  obtain h | ⟨t, ht, hrest⟩ := seqHigh_run ok s
  · rw [h]; exact .refl s
  · have hst : SameSetting s t := by
      obtain rfl | ⟨e, rfl⟩ := ht
      · exact highOk_setting s
      · exact highFail_setting e s
    refine hst.trans ?_
    obtain ⟨-, -, h⟩ | ⟨c, h⟩ | ⟨p, h⟩ := hrest <;> rw [h]
    · exact hok t
    · exact raise_setting _ t
    · exact raise_setting _ t

/-- Rows T6b and T6c. -/
theorem seqSelected_setting (s : State) : SameSetting s (seqSelected s) := by
  have hb : SameSetting s (s.setCurBank s.cBank) := ⟨rfl, rfl, rfl, rfl⟩
  refine hb.trans ?_
  unfold seqSelected
  dsimp only
  split
  · exact endCommand_setting _ _
  · exact beginAccess_setting _

/-- Rows T9b and T9c. -/
theorem seqAccessed_setting (s : State) : SameSetting s (seqAccessed s) := by
  unfold seqAccessed
  split <;> exact endCommand_setting _ s

theorem seqStep_setting (s : State) : SameSetting s (seqStep s) := by
  cases h : s.ph with
  | idle => rw [seqStep, h]; exact .refl s
  | sLow => rw [seqStep_sLow h]; exact seqLow_setting _ s
  | sData => rw [seqStep_sData h]; exact seqData_setting _ _ s
  | sHigh => rw [seqStep_sHigh h]; exact seqHigh_setting seqSelected_setting s
  | aLow => rw [seqStep_aLow h]; exact seqLow_setting _ s
  | aData => rw [seqStep_aData h]; exact seqData_setting _ _ s
  | aHigh => rw [seqStep_aHigh h]; exact seqHigh_setting seqAccessed_setting s

/-- Any step, in either grain and in any phase. -/
theorem step_setting {s t : State} (h : step s = .next t) : SameSetting s t := by
  have taken : SameSetting s s.taken := ⟨rfl, rfl, rfl, rfl⟩
  cases step_run h with
  | reset => exact ⟨rfl, rfl, rfl, rfl⟩
  | nothingPresented => exact .refl s
  | accepted w => exact taken.trans (accept_setting w _)
  | ran w i _ _ _ _ _ he => exact taken.trans (exec_setting he)
  | answeredIllegal => exact taken.trans (raise_setting _ _)
  | continued => exact seqStep_setting s

/-- Settles O17: every branch of a step keeps the parameters and the kinds of environment, host and step. -/
theorem stepKeepsTheParameters : Obligations.StepKeepsTheParameters := by
  intro s t h
  obtain ⟨hparams, htransport, hgoesOn, hgrain⟩ := step_setting h
  exact ⟨hparams, htransport, hgoesOn, hgrain⟩

/-! ### The register map -/

/-- A word has no bit in common with the mask of bit `k` exactly when its bit `k` is clear. -/
theorem and_twoPow_eq_zero_iff {w k : Nat} (v : BitVec w) (hk : k < w) :
    v &&& BitVec.twoPow w k = 0 ↔ v.getLsbD k = false := by
  have hne : BitVec.twoPow w k ≠ 0 := fun h => by
    have hbit := congrArg (BitVec.getLsbD · k) h
    simp [hk] at hbit
  rw [BitVec.and_twoPow]
  cases v.getLsbD k with
  | false => simp
  | true => simpa using hne

/-- Settles O57: the addresses and the masks are closed facts; the three fields of power-management-1 (R38) are single
bits. -/
theorem registerMapConstants : Obligations.RegisterMapConstants := by
  have fields : ∀ v : Byte, (v &&& resetBitMask = 0 ↔ v.getLsbD 7 = false) ∧
      (v &&& lowPowerMask = 0 ↔ v.getLsbD 6 = false) ∧ (v &&& clockAutoMask = 0 ↔ v.getLsbD 0 = false) := fun v =>
    ⟨and_twoPow_eq_zero_iff (k := 7) v (by decide), and_twoPow_eq_zero_iff (k := 6) v (by decide),
      and_twoPow_eq_zero_iff (k := 0) v (by decide)⟩
  exact ⟨rfl, rfl, rfl, rfl, by decide, rfl, rfl, rfl, rfl, rfl, rfl, rfl, fields, by decide⟩

end Sys2Proof.Proofs
end

section
/-! SUPPORT. The statements of 10_state.md, first part. Every command is a bank-select step, if it carries a bank, and
then its access (`commandBody_of_bank`, `commandBody_of_raw`); the sequencer goes through the same two legs, so that six
of its steps after the acceptance reach the command rule's state (`exec_eq_seqSteps`). -/

namespace Sys2Proof.Proofs

open Sys2Proof.Machine Sys2Proof.Laws

/-! ### The two halves of a command -/

/-- What a command does once its bank-select step, if it has one, is OK. -/
def commandAccess : Instr → State → Ran Result
  | .selb _ => fun s => .done (.ok []) s
  | .rdr a => memRead .acc a .two
  | .wrr a v => memWrite .acc a v
  | .rdb _ a => memRead .acc a .two
  | .wrb _ a v => memWrite .acc a v
  | .rdv a => memRead .acc a .seven
  | .rdvb _ a => memRead .acc a .seven

theorem commandBody_of_raw {i : Instr} (h : commandBank i = none) (s : State) :
    commandBody i s = commandAccess i s := by
  cases i with
  | rdr a => rfl
  | wrr a v => rfl
  | rdv a => rfl
  | _ => simp [commandBank] at h

theorem commandBody_of_bank {i : Instr} {b : Bank} (h : commandBank i = some b) (s : State) :
    commandBody i s = selThen b (commandAccess i) s := by
  cases i with
  | selb b' => cases h; exact sel_eq_selThen b s
  | rdb b' a => cases h; rfl
  | wrb b' a v => cases h; rfl
  | rdvb b' a => cases h; rfl
  | _ => simp [commandBank] at h

/-- A relation that the two memory primitives keep is kept by an access. -/
theorem commandAccess_keeps {P : State → State → Prop} (refl : ∀ s, P s s)
    (write : ∀ leg a v s, P s (ranState (memWrite leg a v s)))
    (read : ∀ leg a n s, P s (ranState (memRead leg a n s))) (i : Instr) (s : State) :
    P s (ranState (commandAccess i s)) := by
  cases i with
  | selb b => exact refl s
  | rdr a => exact read ..
  | wrr a v => exact write ..
  | rdb b a => exact read ..
  | wrb b a v => exact write ..
  | rdv a => exact read ..
  | rdvb b a => exact read ..

/-! ### The latched command -/

theorem opClass (i : Instr) : OpClass.Statement i := by
  cases i with
  | selb b => exact OpClass.selb b
  | rdr a => exact OpClass.rdr a
  | wrr a v => exact OpClass.wrr a v
  | rdb b a => exact OpClass.rdb b a
  | wrb b a v => exact OpClass.wrb b a v
  | rdv a => exact OpClass.rdv a
  | rdvb b a => exact OpClass.rdvb b a

/-- The bank latched is the one the command carries. -/
theorem fields_bank {i : Instr} {b : Bank} (h : commandBank i = some b) : i.fields.bank = b := by
  obtain ⟨-, -, -, -, hbank⟩ := opClass i
  exact hbank b h

/-- The latches hold the fields of `i` (R26). -/
structure Latched (i : Instr) (s : State) : Prop where
  op : s.cOp = i.fields.op
  bank : s.cBank = i.fields.bank
  addr : s.cAddr = i.fields.addr
  data : s.cData = i.fields.data

theorem latched_latch (i : Instr) (s : State) : Latched i (latch i s) := ⟨rfl, rfl, rfl, rfl⟩

theorem Latched.setCurBank {i : Instr} {s : State} (h : Latched i s) (b : Bank) : Latched i (s.setCurBank b) :=
  ⟨h.op, h.bank, h.addr, h.data⟩

theorem Latched.of_xactKeeps {i : Instr} {s t : State} (h : Latched i s) (k : XactKeeps s t) : Latched i t :=
  ⟨k.cOp.trans h.op, k.cBank.trans h.bank, k.cAddr.trans h.addr, k.cData.trans h.data⟩

/-- A select is needed when the command carries a bank and its select is not skipped (R186, R141). -/
theorem needsSelect_latch (i : Instr) (s : State) :
    (latch i s).needsSelect = (commandBank i).any fun b => !s.skips b := by cases i <;> rfl

/-! ### The rows that begin a transaction -/

/-- Rows T2 and T3, and T6b and T6c: the bank-select is OK, or none is needed. -/
def afterSelect (s : State) : State :=
  if s.cOp = opSELB then returnOk [] s else s.loadAccessFrame.setPh .aLow

theorem seqSelected_eq (s : State) : seqSelected s = afterSelect (s.setCurBank s.cBank) := rfl

/-- Rows T1 to T3 (R187). -/
theorem accept_cmd {w : CmdWord} {i : Instr} (h : decode w = .cmd i) (s : State) :
    accept w s = if (latch i s).needsSelect then (latch i s).loadSelectFrame.setPh .sLow
      else afterSelect (latch i s) := by
  unfold accept; rw [h]; rfl

/-- Row T0 (R187, R192). -/
theorem accept_illegal {w : CmdWord} {r : IllegalReason} (h : decode w = .illegal r) (s : State) :
    accept w s = raise .illegal s := by
  unfold accept; rw [h]

/-! ### The access frame -/

/-- The opcode classes of R186 exclude each other. -/
theorem opIsWrite_of_read {op : BitVec 3} (h : opIsRead op = true) : opIsWrite op = false := by revert op; decide

theorem opIsWrite_of_blockRead {op : BitVec 3} (h : opIsBlockRead op = true) : opIsWrite op = false := by
  revert op; decide

theorem opIsRead_of_blockRead {op : BitVec 3} (h : opIsBlockRead op = true) : opIsRead op = false := by
  revert op; decide

theorem loadAccessFrame_write {s : State} (h : opIsWrite s.cOp = true) :
    s.loadAccessFrame = s.setFrame (loadWrite s.cAddr s.cData s.xb) .two := by
  unfold State.loadAccessFrame
  rw [if_pos h]

theorem loadAccessFrame_read {s : State} (h : opIsRead s.cOp = true) :
    s.loadAccessFrame = s.setFrame (loadRead s.cAddr .two s.xb) .two := by
  unfold State.loadAccessFrame
  rw [if_neg (by simp [opIsWrite_of_read h]), if_pos h]

theorem loadAccessFrame_blockRead {s : State} (h : opIsBlockRead s.cOp = true) :
    s.loadAccessFrame = s.setFrame (loadRead s.cAddr .seven s.xb) .seven := by
  unfold State.loadAccessFrame
  rw [if_neg (by simp [opIsWrite_of_blockRead h]), if_neg (by simp [opIsRead_of_blockRead h]), if_pos h]

/-! ### The access leg -/

theorem seqAccessed_ph (s : State) : (seqAccessed s).ph = .idle := by unfold seqAccessed; split <;> rfl

/-- The sequencer in the access transaction: three steps reach its end or wait where it waits, and stay there. -/
theorem seqSteps_access {s : State} (hn : s.pend = .none) (n : Nat) :
    seqSteps (3 + n) (s.setPh .aLow) = settle seqAccessed (xact .acc (!opIsWrite s.cOp) s) := by
  have h3 : seqSteps 3 (s.setPh .aLow) = settle seqAccessed (xact .acc (!opIsWrite s.cOp) s) :=
    leg_steps (s := s.setPh .aLow) (accSteps s.cOp) rfl hn
  rw [seqSteps_add, h3]
  cases e : xact .acc (!opIsWrite s.cOp) s with
  | waiting t => exact seqSteps_fix (leg_stuck (s := s.setPh .aLow) (accSteps s.cOp) rfl e) n
  | done r t =>
    cases r with
    | ok d => exact seqSteps_idle (seqAccessed_ph t) n
    | comm c => exact seqSteps_idle (s := raise (.comm c) t) rfl n
    | pin p => exact seqSteps_idle (s := raise (.pin p) t) rfl n

theorem xactKeeps_of_done {leg : Leg} {d : Bool} {s t : State} {r : Result} (h : xact leg d s = .done r t) :
    XactKeeps s t := by
  have k := xact_keeps leg d s
  rwa [h] at k

/-- Rows T9a to T9c end a read as `MemRead` does (R59). -/
theorem settle_memRead {s : State} (h : opIsWrite s.cOp = false) (a : Addr) (n : FrameLen) :
    settle seqAccessed (xact .acc true (s.setFrame (loadRead a n s.xb) n)) = finish (memRead .acc a n s) := by
  unfold memRead
  cases e : xact .acc true (s.setFrame (loadRead a n s.xb) n) with
  | waiting t => rfl
  | done r t =>
    cases r with
    | ok d =>
      have hw : opIsWrite t.cOp = false := by rw [(xactKeeps_of_done e).cOp]; exact h
      simp [settle, seqAccessed, hw, finish, respond, (xact_ok_data e).1]
    | comm c => rfl
    | pin p => rfl

/-- Rows T9a to T9c end a write as `MemWrite` does (R60). -/
theorem settle_memWrite {s : State} (h : opIsWrite s.cOp = true) (a : Addr) (v : Byte) :
    settle seqAccessed (xact .acc false (s.setFrame (loadWrite a v s.xb) .two)) = finish (memWrite .acc a v s) := by
  unfold memWrite
  cases e : xact .acc false (s.setFrame (loadWrite a v s.xb) .two) with
  | waiting t => rfl
  | done r t =>
    cases r with
    | ok d =>
      have hw : opIsWrite t.cOp = true := by rw [(xactKeeps_of_done e).cOp]; exact h
      simp [settle, seqAccessed, hw, finish, respond, Result.noData]
    | comm c => rfl
    | pin p => rfl

/-- The access of a command that reads. -/
theorem seqSteps_read {s : State} {op : BitVec 3} {a : Addr} {m : FrameLen} (hop : s.cOp = op) (hs : op ≠ opSELB)
    (hw : opIsWrite op = false) (hf : s.loadAccessFrame = s.setFrame (loadRead a m s.xb) m) (hn : s.pend = .none)
    (n : Nat) : seqSteps (3 + n) (afterSelect s) = finish (memRead .acc a m s) := by
  subst hop
  rw [afterSelect, if_neg hs, hf, ← settle_memRead hw]
  refine (seqSteps_access (s := s.setFrame (loadRead a m s.xb) m) hn n).trans ?_
  rw [setFrame_cOp, hw]
  rfl

/-- The access of a command that writes. -/
theorem seqSteps_write {s : State} {op : BitVec 3} (hop : s.cOp = op) (hs : op ≠ opSELB) (hw : opIsWrite op = true)
    (hn : s.pend = .none) (n : Nat) :
    seqSteps (3 + n) (afterSelect s) = finish (memWrite .acc s.cAddr s.cData s) := by
  subst hop
  rw [afterSelect, if_neg hs, loadAccessFrame_write hw, ← settle_memWrite hw]
  refine (seqSteps_access (s := s.setFrame (loadWrite s.cAddr s.cData s.xb) .two) hn n).trans ?_
  rw [setFrame_cOp, hw]
  rfl

/-- From the end of the select on, the sequencer ends or waits as the access of the command does. -/
theorem seqSteps_afterSelect {i : Instr} {s : State} (hl : Latched i s) (hn : s.pend = .none) (n : Nat) :
    seqSteps (3 + n) (afterSelect s) = finish (commandAccess i s) := by
  obtain ⟨hop, -, haddr, hdata⟩ := hl
  cases i with
  | selb b =>
    rw [afterSelect, if_pos (show s.cOp = opSELB from hop)]
    exact seqSteps_idle (s := returnOk [] s) rfl _
  | rdr a | rdb b a =>
    dsimp only [Instr.fields] at hop
    obtain rfl : s.cAddr = a := haddr
    exact seqSteps_read hop (by decide) rfl (loadAccessFrame_read (by rw [hop]; rfl)) hn n
  | wrr a v | wrb b a v =>
    dsimp only [Instr.fields] at hop
    obtain rfl : s.cAddr = a := haddr
    obtain rfl : s.cData = v := hdata
    exact seqSteps_write hop (by decide) rfl hn n
  | rdv a | rdvb b a =>
    dsimp only [Instr.fields] at hop
    obtain rfl : s.cAddr = a := haddr
    exact seqSteps_read hop (by decide) rfl (loadAccessFrame_blockRead (by rw [hop]; rfl)) hn n

/-! ### The select leg, and the whole command -/

/-- A select that is not skipped, and all that follows it. -/
theorem seqSteps_select {i : Instr} {s : State} (hl : Latched i s) (hn : s.pend = .none)
    (hs : s.skips s.cBank = false) :
    seqSteps 6 (s.loadSelectFrame.setPh .sLow) = finish (selThen s.cBank (commandAccess i) s) := by
  have h3 : seqSteps 3 (s.loadSelectFrame.setPh .sLow) = settle seqSelected (selectXact s.cBank s) :=
    leg_steps (s := s.loadSelectFrame.setPh .sLow) (selSteps s.cOp) rfl hn
  rw [seqSteps_add 3 3, h3]
  unfold selThen
  obtain ⟨h, -⟩ | ⟨-, ⟨t, hx, e⟩ | ⟨d, t, hx, e⟩ | ⟨c, t, hx, e⟩ | ⟨p, t, hx, e⟩⟩ := sel_cases s.cBank s
  · rw [hs] at h; cases h
  · rw [hx, e]
    exact seqSteps_fix (leg_stuck (s := s.loadSelectFrame.setPh .sLow) (selSteps s.cOp) rfl hx) 3
  · rw [hx, e, settle, seqSelected_eq]
    have hk : XactKeeps s.loadSelectFrame t := xactKeeps_of_done hx
    have hl' : Latched i s.loadSelectFrame := ⟨hl.op, hl.bank, hl.addr, hl.data⟩
    have hb : t.cBank = s.cBank := hk.cBank
    obtain ⟨-, hpend, -⟩ := xact_ok_data hx
    rw [hb]
    exact seqSteps_afterSelect ((hl'.of_xactKeeps hk).setCurBank s.cBank) hpend 0
  · rw [hx, e]
    exact seqSteps_idle (s := raise (.comm c) t) rfl 3
  · rw [hx, e]
    exact seqSteps_idle (s := raise (.pin p) t) rfl 3

/-- The acceptance of a command's word and six steps of the sequencer are its command rule (R185 to R189). -/
theorem exec_eq_seqSteps {w : CmdWord} {i : Instr} (h : decode w = .cmd i) (s : State) :
    exec i s = .next (seqSteps 6 (accept w s)) := by
  have hl := latched_latch i s
  rw [exec_eq, runCommand, accept_cmd h, needsSelect_latch]
  cases hb : commandBank i with
  | none =>
    rw [commandBody_of_raw hb, ← seqSteps_afterSelect hl rfl 3]
    rfl
  | some b =>
    obtain rfl := fields_bank hb
    rw [commandBody_of_bank hb]
    cases hs : s.skips i.fields.bank with
    | true =>
      rw [selThen_ok (sel_skips (s := latch i s) hs), ← seqSteps_afterSelect hl rfl 3]
      simp [hs]
    | false =>
      have hsel := seqSteps_select hl rfl hs
      rw [latch_cBank] at hsel
      rw [← hsel]
      simp [hs]

end Sys2Proof.Proofs
end

section
/-! SUPPORT. The statements of 10_state.md, second part: the invariant. Each primitive keeps the part of it that holds
in every phase (`BusSafe`); each row of the transition table brings the part that its next phase asks for. A whole
command keeps it because it is a run of the sequencer (`exec_eq_seqSteps`). -/

namespace Sys2Proof.Proofs

open Sys2Proof.Machine Sys2Proof.Laws

/-! ### The part that holds in every phase -/

/-- The register file is in canonical form, and every frame sent has one of the three shapes (R98, R108). -/
structure BusSafe (s : State) : Prop where
  memWf : Memory.wf s.mem = true
  shapes : ∀ e ∈ s.trace, e.shapeOk = true

theorem busSafe_of_inv {s : State} (h : Inv s) : BusSafe s := ⟨h.memWf, h.shapes⟩

/-- It speaks of two fields only. -/
theorem BusSafe.congr {s t : State} (h : BusSafe s) (hm : t.mem = s.mem) (ht : t.trace = s.trace) : BusSafe t :=
  ⟨hm ▸ h.memWf, ht ▸ h.shapes⟩

/-- One more answered invocation, whose token has one of the shapes. -/
theorem BusSafe.log_spent {s : State} {e : Event} (h : BusSafe s) (he : e.shapeOk = true) :
    BusSafe (s.log e).spent := by
  refine ⟨spent_wf h.memWf, fun e' hmem => ?_⟩
  simp only [spent_trace, log_trace, List.mem_append, List.mem_singleton] at hmem
  obtain hmem | rfl := hmem
  · exact h.shapes e' hmem
  · exact he

theorem BusSafe.lowOk {s : State} (h : BusSafe s) : BusSafe (lowOk s) :=
  (h.congr (t := s.setCs .low) rfl rfl).log_spent rfl

theorem BusSafe.lowFail {s : State} (h : BusSafe s) (e : Nat) : BusSafe (lowFail e s) :=
  (h.congr (t := s.setCs (Config.freeLevel s.tick)) rfl rfl).log_spent rfl

theorem BusSafe.highOk {s : State} (h : BusSafe s) : BusSafe (highOk s) :=
  (h.congr (t := s.setCs .high) rfl rfl).log_spent rfl

theorem BusSafe.highFail {s : State} (h : BusSafe s) (e : Nat) : BusSafe (highFail e s) :=
  (h.congr (t := s.setCs (Config.freeLevel s.tick)) rfl rfl).log_spent rfl

theorem BusSafe.devWriteOk {s : State} (h : BusSafe s) (x v : Byte) : BusSafe (s.devWriteOk x v) :=
  ⟨devWriteOk_wf h.memWf x v, by rw [devWriteOk_trace]; exact h.shapes⟩

theorem BusSafe.dataOk {s : State} {d : Bool} (h : BusSafe s) (hd : ∀ e, DataToken d s e → e.shapeOk = true) :
    BusSafe (dataOk d s) := by
  cases d with
  | false => exact (h.devWriteOk _ _).log_spent (hd _ (.inl rfl))
  | true =>
    have hx : BusSafe ((s.devWriteOk s.xb.b0 s.xb.b1).setXb (takeResponse s.response s.xn s.xb)) :=
      (h.devWriteOk _ _).congr rfl rfl
    exact hx.log_spent (hd _ (.inl ⟨s.response, rfl⟩))

theorem BusSafe.dataFail {s : State} {d : Bool} (h : BusSafe s) (hd : ∀ e, DataToken d s e → e.shapeOk = true)
    (e : Nat) : BusSafe (dataFail d e s) := by
  cases d with
  | false => exact h.log_spent (hd _ (.inr ⟨_, rfl⟩))
  | true =>
    have hx : BusSafe (s.setXb (Config.freeBuffer s.tick)) := h.congr rfl rfl
    exact hx.log_spent (hd _ (.inr ⟨_, rfl⟩))

/-! ### The part of the phase -/

/-- The frame a transaction sends is loaded, and no error is pending (R186, R188, R189). -/
def FrameLoaded : Leg → State → Prop
  | .sel, s =>
    opHasBank s.cOp ∧ s.xn = .two ∧ s.xb.b0 = writeAddrByte bankSelAddr ∧ s.xb.b1 = bankCode s.params s.cBank
  | .acc, s => s.accessFrameLoaded

/-- What is still known of the frame's command when the data primitive has been invoked: a read has overwritten the
buffer. -/
def FrameSent : Leg → State → Prop
  | .sel, s => FrameLoaded .sel s
  | .acc, s => s.cOp ≠ 0 ∧ s.cOp ≠ opSELB

/-- The data primitive of a transaction is `transfer` (R61). -/
def legDuplex : Leg → State → Bool
  | .sel, _ => false
  | .acc, s => !opIsWrite s.cOp

theorem legDuplex_acc (s : State) : legDuplex .acc s = !opIsWrite s.cOp := rfl

/-- What the loaded frame depends on. -/
structure SameFrameFields (s t : State) : Prop where
  params : t.params = s.params
  cOp : t.cOp = s.cOp
  cBank : t.cBank = s.cBank
  cAddr : t.cAddr = s.cAddr
  cData : t.cData = s.cData
  xn : t.xn = s.xn
  xb : t.xb = s.xb

theorem SameFrameFields.setPh {s t : State} (h : SameFrameFields s t) (p : Phase) : SameFrameFields s (t.setPh p) :=
  ⟨h.params, h.cOp, h.cBank, h.cAddr, h.cData, h.xn, h.xb⟩

theorem SameFrameFields.setPend {s t : State} (h : SameFrameFields s t) (q : Pend) :
    SameFrameFields s (t.setPend q) := ⟨h.params, h.cOp, h.cBank, h.cAddr, h.cData, h.xn, h.xb⟩

theorem FrameLoaded.congr {leg : Leg} {s t : State} (h : FrameLoaded leg s) (k : SameFrameFields s t) :
    FrameLoaded leg t := by
  cases leg <;>
    simpa only [FrameLoaded, State.accessFrameLoaded, k.params, k.cOp, k.cBank, k.cAddr, k.cData, k.xn, k.xb] using h

theorem sameFrameFields_lowOk (s : State) : SameFrameFields s (lowOk s) := by constructor <;> simp [lowOk]

theorem sameFrameFields_lowFail (e : Nat) (s : State) : SameFrameFields s (lowFail e s) := by
  constructor <;> simp [lowFail]

/-- The opcodes with an access are those of the commands but SELB (R91, R186). -/
theorem opcode_access_iff (op : BitVec 3) :
    (opIsWrite op ∨ opIsRead op ∨ opIsBlockRead op) ↔ op ≠ 0 ∧ op ≠ opSELB := by revert op; decide

theorem opHasBank_ne_zero {op : BitVec 3} (h : opHasBank op = true) : op ≠ 0 := by revert op; decide

/-- No command has the reserved opcode (R91). -/
theorem fields_op_ne_zero (i : Instr) : i.fields.op ≠ 0 := by cases i <;> simp [Instr.fields]

theorem opHasBank_of_needsSelect {s : State} (h : s.needsSelect = true) : opHasBank s.cOp = true :=
  (Bool.and_eq_true_iff.mp h).1

theorem FrameLoaded.sent {leg : Leg} {s : State} (h : FrameLoaded leg s) : FrameSent leg s := by
  cases leg with
  | sel => exact h
  | acc =>
    refine (opcode_access_iff s.cOp).mp ?_
    obtain ⟨hop, -⟩ | ⟨hop, -⟩ | ⟨hop, -⟩ := h
    · exact .inl hop
    · exact .inr (.inl hop)
    · exact .inr (.inr hop)

/-- What the data primitive must keep: the frame of the select, the opcode of the access. -/
theorem FrameLoaded.sent_of_eq {leg : Leg} {s t : State} (h : FrameLoaded leg s) (hop : t.cOp = s.cOp)
    (hsel : leg = .sel → SameFrameFields s t) : FrameSent leg t := by
  cases leg with
  | sel => exact h.congr (hsel rfl)
  | acc =>
    show t.cOp ≠ 0 ∧ t.cOp ≠ opSELB
    rw [hop]
    exact h.sent

theorem dataOk_cOp (d : Bool) (s : State) : (dataOk d s).cOp = s.cOp := by cases d <;> simp [dataOk]

theorem dataFail_cOp (d : Bool) (e : Nat) (s : State) : (dataFail d e s).cOp = s.cOp := by cases d <;> simp [dataFail]

/-- `write` leaves the buffer (R188). -/
theorem sameFrameFields_dataOk_write (s : State) : SameFrameFields s (dataOk false s) := by
  constructor <;> simp [dataOk]

theorem sameFrameFields_dataFail_write (e : Nat) (s : State) : SameFrameFields s (dataFail false e s) := by
  constructor <;> simp [dataFail]

/-- A write frame has the first shape of R98. -/
theorem dataToken_write {s : State} {a : Addr} (hb : s.xb.b0 = writeAddrByte a) {e : Event}
    (he : DataToken false s e) : e.shapeOk = true := by
  obtain rfl | ⟨c, rfl⟩ := he <;> simp [Event.shapeOk, hb]

/-- A read frame has the second or the third. -/
theorem dataToken_read {s : State} (hr : Event.readSent (s.xb.frame s.xn) = true) {e : Event}
    (he : DataToken true s e) : e.shapeOk = true := by
  have hlen (x y : XBuf) (n : FrameLen) : (x.frame n).length = (y.frame n).length := by cases n <;> rfl
  obtain ⟨r, rfl⟩ | ⟨c, rfl⟩ := he
  · simp [Event.shapeOk, hr, hlen r s.xb]
  · exact hr

/-- Every token of the data primitive over a loaded frame has one of the three shapes (R98, R108). -/
theorem FrameLoaded.shapes {leg : Leg} {s : State} (h : FrameLoaded leg s) :
    ∀ e, DataToken (legDuplex leg s) s e → e.shapeOk = true := by
  intro e he
  cases leg with
  | sel =>
    obtain ⟨-, -, hb, -⟩ := h
    exact dataToken_write hb he
  | acc =>
    rw [legDuplex_acc] at he
    obtain ⟨hop, -, hb, -⟩ | ⟨hop, hn, hb, hf⟩ | ⟨hop, hn, hx⟩ := h
    · rw [hop] at he
      exact dataToken_write hb he
    · rw [opIsWrite_of_read hop] at he
      exact dataToken_read (by simp [hn, XBuf.frame, Event.readSent, hb, hf]) he
    · rw [opIsWrite_of_blockRead hop] at he
      exact dataToken_read (by simp [hn, hx, XBuf.frame, Event.readSent]) he

/-! ### The invariant, phase by phase -/

theorem inv_idle {s : State} (h : BusSafe s) (hp : s.ph = .idle) (hn : s.pend = .none) : Inv s where
  memWf := h.memWf
  pendEarly _ := hn
  selectFrame hph := by simp [hp] at hph
  accessFrame hph := by simp [hp] at hph
  accessOp hph := by simp [hp] at hph
  shapes := h.shapes

/-- Before the data primitive. -/
theorem inv_early {leg : Leg} {s : State} (h : BusSafe s) (hp : s.ph = leg.low ∨ s.ph = leg.data)
    (hn : s.pend = .none) (hf : FrameLoaded leg s) : Inv s where
  memWf := h.memWf
  pendEarly _ := hn
  selectFrame hph := by
    cases leg with
    | sel => exact hf
    | acc => obtain hp | hp := hp <;> simp [hp, Leg.low, Leg.data] at hph
  accessFrame hph := by
    cases leg with
    | sel => obtain hp | hp := hp <;> simp [hp, Leg.low, Leg.data] at hph
    | acc => exact hf
  accessOp hph := by obtain hp | hp := hp <;> cases leg <;> simp [hp, Leg.low, Leg.data] at hph
  shapes := h.shapes

/-- Once the data primitive has been invoked, or the assertion has failed. -/
theorem inv_late {leg : Leg} {s : State} (h : BusSafe s) (hp : s.ph = leg.high) (hf : FrameSent leg s) : Inv s where
  memWf := h.memWf
  pendEarly hph := by cases leg <;> simp [hp, Leg.high] at hph
  selectFrame hph := by
    cases leg with
    | sel => exact hf
    | acc => simp [hp, Leg.high] at hph
  accessFrame hph := by cases leg <;> simp [hp, Leg.high] at hph
  accessOp hph := by
    cases leg with
    | sel => simp [hp, Leg.high] at hph
    | acc => exact hf
  shapes := h.shapes

/-- A command in progress, before its data primitive. -/
theorem loaded_of_inv {leg : Leg} {s : State} (h : Inv s) (hp : s.ph = leg.low ∨ s.ph = leg.data) :
    s.pend = .none ∧ FrameLoaded leg s := by
  cases leg with
  | sel => exact ⟨h.pendEarly (by obtain hp | hp := hp <;> simp [hp, Leg.low, Leg.data]),
      h.selectFrame (by obtain hp | hp := hp <;> simp [hp, Leg.low, Leg.data])⟩
  | acc => exact ⟨h.pendEarly (by obtain hp | hp := hp <;> simp [hp, Leg.low, Leg.data]), h.accessFrame hp⟩

theorem inv_endCommand {s : State} (h : BusSafe s) (r : Response) : Inv (endCommand r s) :=
  inv_idle (h.congr rfl rfl) rfl rfl

/-! ### The rows -/

/-- Loading the access frame of an opcode that has one. -/
theorem frameLoaded_loadAccessFrame {s : State} (h : opIsWrite s.cOp ∨ opIsRead s.cOp ∨ opIsBlockRead s.cOp) :
    FrameLoaded .acc s.loadAccessFrame := by
  obtain h | h | h := h
  · rw [loadAccessFrame_write h]
    exact .inl ⟨h, rfl, rfl, rfl⟩
  · rw [loadAccessFrame_read h]
    exact .inr (.inl ⟨h, rfl, rfl, rfl⟩)
  · rw [loadAccessFrame_blockRead h]
    exact .inr (.inr ⟨h, rfl, rfl⟩)

theorem loadAccessFrame_mem (s : State) : s.loadAccessFrame.mem = s.mem := by
  unfold State.loadAccessFrame; split_ifs <;> rfl

theorem loadAccessFrame_trace (s : State) : s.loadAccessFrame.trace = s.trace := by
  unfold State.loadAccessFrame; split_ifs <;> rfl

theorem loadAccessFrame_pend (s : State) : s.loadAccessFrame.pend = s.pend := by
  unfold State.loadAccessFrame; split_ifs <;> rfl

/-- Rows T2 and T3, T6b and T6c, for the opcode of a command. -/
theorem inv_afterSelect {s : State} (h : BusSafe s) (hn : s.pend = .none) (hop : s.cOp ≠ 0) : Inv (afterSelect s) := by
  unfold afterSelect
  split
  next => exact inv_endCommand h _
  next hs =>
    have hl := frameLoaded_loadAccessFrame ((opcode_access_iff s.cOp).mpr ⟨hop, hs⟩)
    exact inv_early (leg := .acc) (h.congr (loadAccessFrame_mem s) (loadAccessFrame_trace s)) (.inl rfl)
      ((loadAccessFrame_pend s).trans hn) hl

/-- Rows T0 to T3. -/
theorem inv_accept {s : State} (h : Inv s) (hp : s.ph = .idle) (w : CmdWord) : Inv (accept w s) := by
  have hb := busSafe_of_inv h
  have hn := h.pendEarly (.inl hp)
  cases hd : decode w with
  | illegal r => rw [accept_illegal hd]; exact inv_idle (hb.congr rfl rfl) hp hn
  | cmd i =>
    rw [accept_cmd hd]
    split
    next hs =>
      have hbank : opHasBank i.fields.op = true := opHasBank_of_needsSelect hs
      exact inv_early (leg := .sel) (hb.congr rfl rfl) (.inl rfl) rfl ⟨hbank, rfl, rfl, rfl⟩
    next => exact inv_afterSelect (hb.congr rfl rfl) rfl (fields_op_ne_zero i)

/-- Rows T4 and T7. -/
theorem inv_seqLow {leg : Leg} {s : State} (h : Inv s) (hp : s.ph = leg.low) : Inv (seqLow leg s) := by
  have hb := busSafe_of_inv h
  obtain ⟨hn, hf⟩ := loaded_of_inv h (.inl hp)
  obtain e | e | ⟨c, e⟩ | ⟨c, e⟩ := seqLow_run leg s <;> rw [e]
  · exact h
  · exact inv_early (leg := leg) (hb.lowOk.congr rfl rfl) (.inr rfl) (by simpa [lowOk] using hn)
      (hf.congr ((sameFrameFields_lowOk s).setPh _))
  · exact inv_late (leg := leg) ((hb.lowFail c).congr rfl rfl) rfl
      (hf.congr (((sameFrameFields_lowFail c s).setPend _).setPh _)).sent
  · exact inv_endCommand (hb.lowFail c) _

/-- Rows T5 and T8. -/
theorem inv_seqData {leg : Leg} {s : State} (h : Inv s) (hp : s.ph = leg.data) :
    Inv (seqData leg (legDuplex leg s) s) := by
  have hb := busSafe_of_inv h
  obtain ⟨-, hf⟩ := loaded_of_inv h (.inr hp)
  obtain e | e | ⟨c, e⟩ := seqData_run leg (legDuplex leg s) s <;> rw [e]
  · exact h
  · refine inv_late (leg := leg) ((hb.dataOk hf.shapes).congr rfl rfl) rfl (hf.sent_of_eq (dataOk_cOp _ s) ?_)
    rintro rfl
    exact (sameFrameFields_dataOk_write s).setPh _
  · refine inv_late (leg := leg) ((hb.dataFail hf.shapes c).congr rfl rfl) rfl (hf.sent_of_eq (dataFail_cOp _ c s) ?_)
    rintro rfl
    exact ((sameFrameFields_dataFail_write c s).setPend _).setPh _

/-- Rows T6 and T9, from what a success leads to. -/
theorem inv_seqHigh {ok : State → State} {s : State} (h : Inv s)
    (hok : BusSafe (highOk s) → s.pend = .none → Inv (ok (highOk s))) : Inv (seqHigh ok s) := by
  obtain e | ⟨t, ht, hrest⟩ := seqHigh_run ok s
  · rw [e]; exact h
  · have hb : BusSafe t := by
      obtain rfl | ⟨c, rfl⟩ := ht
      · exact (busSafe_of_inv h).highOk
      · exact (busSafe_of_inv h).highFail c
    obtain ⟨hn, rfl, e⟩ | ⟨c, e⟩ | ⟨p, e⟩ := hrest <;> rw [e]
    · exact hok hb hn
    · exact inv_endCommand hb _
    · exact inv_endCommand hb _

/-- Rows T6b and T6c. -/
theorem inv_seqHigh_sel {s : State} (h : Inv s) (hp : s.ph = .sHigh) : Inv (seqHigh seqSelected s) := by
  obtain ⟨hbank, -⟩ := h.selectFrame (.inr (.inr hp))
  refine inv_seqHigh h fun hb hn => ?_
  rw [seqSelected_eq]
  have hop : (highOk s).cOp = s.cOp := by simp [highOk]
  exact inv_afterSelect (hb.congr rfl rfl) (by simpa [highOk] using hn)
    (by rw [setCurBank_cOp, hop]; exact opHasBank_ne_zero hbank)

/-- Rows T9b and T9c. -/
theorem inv_seqHigh_acc {s : State} (h : Inv s) : Inv (seqHigh seqAccessed s) := by
  refine inv_seqHigh h fun hb _ => ?_
  unfold seqAccessed
  split <;> exact inv_endCommand hb _

theorem inv_seqStep {s : State} (h : Inv s) : Inv (seqStep s) := by
  cases hp : s.ph with
  | idle => rw [seqStep, hp]; exact h
  | sLow => rw [seqStep_sLow hp]; exact inv_seqLow h hp
  | sData => rw [seqStep_sData hp]; exact inv_seqData (leg := .sel) h hp
  | sHigh => rw [seqStep_sHigh hp]; exact inv_seqHigh_sel h hp
  | aLow => rw [seqStep_aLow hp]; exact inv_seqLow h hp
  | aData => rw [seqStep_aData hp]; exact inv_seqData (leg := .acc) h hp
  | aHigh => rw [seqStep_aHigh hp]; exact inv_seqHigh_acc h

theorem inv_seqSteps {s : State} (h : Inv s) (n : Nat) : Inv (seqSteps n s) := by
  induction n generalizing s with
  | zero => exact h
  | succ n ih => exact ih (inv_seqStep h)

/-! ### The statements -/

theorem inv_taken {s : State} (h : Inv s) : Inv s.taken :=
  ⟨h.memWf, h.pendEarly, h.selectFrame, h.accessFrame, h.accessOp, h.shapes⟩

/-- Settles O16: a step of grain `invocation` is one row of the transition table, and one of grain `command` seven. -/
theorem stepKeepsTheInvariant : Obligations.StepKeepsTheInvariant := by
  intro s t h hstep
  cases step_run hstep with
  | reset => exact inv_idle ((busSafe_of_inv h).congr rfl rfl) rfl rfl
  | nothingPresented => exact h
  | accepted w _ hp => exact inv_accept (inv_taken h) hp w
  | ran w i _ hp _ _ hd he =>
    rw [exec_eq_seqSteps hd] at he
    cases he
    exact inv_seqSteps (inv_accept (inv_taken h) hp w) 6
  | answeredIllegal w r _ hp _ _ hd =>
    rw [← accept_illegal hd]
    exact inv_accept (inv_taken h) hp w
  | continued => exact inv_seqStep h

/-- Settles O15: the register file, the trace and the pending error are empty at reset. -/
theorem resetMeetsTheInvariant : Obligations.ResetMeetsTheInvariant :=
  inv_idle ⟨rfl, nofun⟩ rfl rfl

end Sys2Proof.Proofs
end

section
/-! SUPPORT. The statements of 10_state.md, third part: what every command keeps, and the one way `cur_bank` changes. -/

namespace Sys2Proof.Proofs

open Sys2Proof.Machine Sys2Proof.Laws

/-! ### What every command keeps -/

theorem keeps_of_bodyKeeps {s t : State} (h : BodyKeeps s t) : Keeps s t :=
  ⟨h.params, h.transport, h.grain, h.rst, by rw [h.host], by rw [h.host], by rw [h.host], by rw [h.host]⟩

theorem memWrite_trace (leg : Leg) (a : Addr) (v : Byte) (s : State) :
    s.trace <+: (ranState (memWrite leg a v s)).trace := by
  rw [ranState_memWrite]
  exact xact_grows leg false (s.setFrame (loadWrite a v s.xb) .two)

theorem memRead_trace (leg : Leg) (a : Addr) (n : FrameLen) (s : State) :
    s.trace <+: (ranState (memRead leg a n s)).trace :=
  xact_grows leg true (s.setFrame (loadRead a n s.xb) n)

theorem commandBody_trace (i : Instr) (s : State) : s.trace <+: (ranState (commandBody i s)).trace :=
  commandBody_keeps (P := fun s t => s.trace <+: t.trace) (fun _ => List.prefix_rfl) List.IsPrefix.trans
    (fun _ _ => List.prefix_rfl) memWrite_trace memRead_trace i s

/-- Settles O34: the body of a command keeps all this and sends nothing; its end adds one response. -/
theorem commandsKeepTheRest : Obligations.CommandsKeepTheRest := by
  intro i s t h
  have hb := (latch_body i s).trans (commandBody_body i (latch i s))
  have htr := commandBody_trace i (latch i s)
  obtain ⟨r, u, e, rfl⟩ | e := exec_cases h <;> rw [e] at hb htr
  · have hend := ended_endCommand (resultResponse r) hb
    exact ⟨hend.keeps, htr, ⟨_, hend.rsps.symm⟩⟩
  · exact ⟨keeps_of_bodyKeeps hb, htr, ⟨[], by simp [show t.rsps = s.rsps from hb.rsps]⟩⟩

/-! ### `cur_bank` -/

/-- `cur_bank` is as before, and the trace has only grown. -/
def BankKept (s t : State) : Prop := t.curBank = s.curBank ∧ s.trace <+: t.trace

theorem commandAccess_bankKept (i : Instr) (s : State) : BankKept s (ranState (commandAccess i s)) :=
  commandAccess_keeps (fun _ => ⟨rfl, List.prefix_rfl⟩)
    (fun leg a v s => ⟨by rw [ranState_memWrite]; exact (xact_keeps leg false (s.setFrame _ _)).curBank,
      memWrite_trace leg a v s⟩)
    (fun leg a n s => ⟨(xact_keeps leg true (s.setFrame (loadRead a n s.xb) n)).curBank, memRead_trace leg a n s⟩) i s

/-- SEL(b) leaves `cur_bank`, or is a bank-select transaction of `b` that was answered ok three times (R142, R143). -/
theorem sel_curBank (b : Bank) (s : State) :
    (ranState (sel b s)).curBank = s.curBank ∨
      s.AllOk 3 ∧ ∃ u, sel b s = .done (.ok []) u ∧ u.curBank = b ∧ u.trace = s.trace ++ selectTokens s.params b := by
  have hk : (ranState (selectXact b s)).curBank = s.curBank := (xact_keeps .sel false (s.setFrame _ _)).curBank
  obtain ⟨-, e⟩ | ⟨hs, ⟨t, hx, e⟩ | ⟨d, t, hx, e⟩ | ⟨c, t, hx, e⟩ | ⟨p, t, hx, e⟩⟩ := sel_cases b s
  · left; rw [e]; rfl
  · left; rw [hx] at hk; rw [e]; exact hk
  · right
    obtain ⟨-, -, hok⟩ := xact_ok_data hx
    obtain ⟨u, hu, h1, hb, -⟩ := sel_ok b hs hok
    exact ⟨hok, u, hu, hb, h1.trace⟩
  · left; rw [hx] at hk; rw [e]; exact hk
  · left; rw [hx] at hk; rw [e]; exact hk

/-- A select followed by an access that keeps `cur_bank`. -/
theorem selThen_curBank {access : State → Ran Result} (ha : ∀ t, BankKept t (ranState (access t))) (b : Bank)
    (s : State) (h : (ranState (selThen b access s)).curBank ≠ s.curBank) :
    (ranState (selThen b access s)).curBank = b ∧ s.AllOk 3 ∧
      s.trace ++ selectTokens s.params b <+: (ranState (selThen b access s)).trace := by
  obtain hc | ⟨hok, u, hu, hb, htr⟩ := sel_curBank b s
  · refine absurd ?_ h
    unfold selThen
    cases e : sel b s with
    | waiting t => rw [e] at hc; exact hc
    | done r t =>
      rw [e] at hc
      cases r with
      | ok d => exact (ha t).1.trans hc
      | comm c => exact hc
      | pin p => exact hc
  · obtain ⟨hcur, hgrow⟩ := ha u
    rw [selThen_ok hu]
    exact ⟨hcur.trans hb, hok, htr ▸ hgrow⟩

/-- A command's body changes `cur_bank` only by its bank-select. -/
theorem commandBody_curBank (i : Instr) (s : State) (h : (ranState (commandBody i s)).curBank ≠ s.curBank) :
    commandBank i = some (ranState (commandBody i s)).curBank ∧ s.AllOk 3 ∧
      s.trace ++ selectTokens s.params (ranState (commandBody i s)).curBank <+: (ranState (commandBody i s)).trace := by
  cases hb : commandBank i with
  | none =>
    rw [commandBody_of_raw hb] at h
    exact absurd (commandAccess_bankKept i s).1 h
  | some b =>
    rw [commandBody_of_bank hb] at h ⊢
    obtain ⟨hcur, hok, htr⟩ := selThen_curBank (commandAccess_bankKept i) b s h
    rw [hcur]
    exact ⟨rfl, hok, htr⟩

/-- Settles O35: latching and ending a command leave `cur_bank` and the trace. -/
theorem curBankChangesOnlyBySuccessfulSelect : Obligations.CurBankChangesOnlyBySuccessfulSelect := by
  intro i s t h hne
  have key := commandBody_curBank i (latch i s)
  obtain ⟨r, u, e, rfl⟩ | e := exec_cases h <;> rw [e] at key <;> exact key hne

end Sys2Proof.Proofs
end

section
/-! SUPPORT. The statements of 10_state.md, fourth part: two runs of one command side by side, from states that differ
in the device behind the unconstrained transport, or in the working registers. -/

namespace Sys2Proof.Proofs

open Sys2Proof.Machine Sys2Proof.Laws

/-! ### A whole command, twice -/

/-- `R` relates two states between primitives, `Q` two states between transactions: loading a frame leads from `Q` to
`R`. -/
structure SimulatesCommand (Q R : State → State → Prop) : Prop where
  primitives : Simulates R
  between {s t} : R s t → Q s t
  skips {s t} (b) : Q s t → t.skips b = s.skips b
  params {s t} : Q s t → t.params = s.params
  loadRead {s t} (leg : Leg) (a) (n) : Q s t →
    R ((s.setFrame (loadRead a n s.xb) n).setPh leg.low) ((t.setFrame (loadRead a n t.xb) n).setPh leg.low)
  loadWrite {s t} (leg : Leg) (a) (v) : Q s t →
    R ((s.setFrame (loadWrite a v s.xb) .two).setPh leg.low) ((t.setFrame (loadWrite a v t.xb) .two).setPh leg.low)
  setCurBank {s t} (b) : Q s t → Q (s.setCurBank b) (t.setCurBank b)

theorem RanRel.mono {α : Type} {R Q : State → State → Prop} {x y : Ran α} (h : RanRel R x y)
    (hw : ∀ s t, R s t → Q s t) : RanRel Q x y := by
  cases x <;> cases y
  · exact ⟨h.1, hw _ _ h.2⟩
  · exact h.elim
  · exact h.elim
  · exact hw _ _ h

namespace SimulatesCommand

variable {Q R : State → State → Prop} (hQ : SimulatesCommand Q R)
include hQ

theorem memRead (leg : Leg) (a : Addr) (n : FrameLen) {s t : State} (h : Q s t) :
    RanRel Q (memRead leg a n s) (memRead leg a n t) :=
  RanRel.mono (hQ.primitives.memRead leg a n (hQ.loadRead leg a n h)) fun _ _ => hQ.between

theorem memWrite (leg : Leg) (a : Addr) (v : Byte) {s t : State} (h : Q s t) :
    RanRel Q (memWrite leg a v s) (memWrite leg a v t) :=
  RanRel.mono (hQ.primitives.memWrite leg a v (hQ.loadWrite leg a v h)) fun _ _ => hQ.between

theorem sel (b : Bank) {s t : State} (h : Q s t) : RanRel Q (sel b s) (sel b t) := by
  unfold Machine.sel
  rw [hQ.skips b h, hQ.params h]
  split
  · exact ⟨rfl, h⟩
  · refine (hQ.memWrite .sel bankSelAddr _ h).bind fun r s t h => ?_
    cases r with
    | ok d => exact ⟨rfl, hQ.setCurBank b h⟩
    | comm c => exact ⟨rfl, h⟩
    | pin p => exact ⟨rfl, h⟩

theorem commandAccess (i : Instr) {s t : State} (h : Q s t) : RanRel Q (commandAccess i s) (commandAccess i t) := by
  cases i with
  | selb b => exact ⟨rfl, h⟩
  | rdr a | rdb b a => exact hQ.memRead .acc a .two h
  | wrr a v | wrb b a v => exact hQ.memWrite .acc a v h
  | rdv a | rdvb b a => exact hQ.memRead .acc a .seven h

theorem commandBody (i : Instr) {s t : State} (h : Q s t) : RanRel Q (commandBody i s) (commandBody i t) := by
  cases hb : commandBank i with
  | none =>
    rw [commandBody_of_raw hb, commandBody_of_raw hb]
    exact hQ.commandAccess i h
  | some b =>
    rw [commandBody_of_bank hb, commandBody_of_bank hb]
    refine (hQ.sel b h).bind fun r s t h => ?_
    cases r with
    | ok d => exact hQ.commandAccess i h
    | comm c => exact ⟨rfl, h⟩
    | pin p => exact ⟨rfl, h⟩

end SimulatesCommand

/-! ### Behind the unconstrained transport -/

/-- The same state on the unconstrained transport, but for the device. -/
def SameButDevice (s t : State) : Prop := s.transport = .free ∧ ∃ d m, t = { s with dSel := d, mem := m }

theorem SameButDevice.spent {s t : State} (h : SameButDevice s t) : SameButDevice s.spent t.spent := by
  obtain ⟨hf, d, m, rfl⟩ := h
  obtain ⟨d1, m1, h1⟩ := devDrift_eq s
  obtain ⟨d2, m2, h2⟩ := devDrift_eq { s with dSel := d, mem := m }
  refine ⟨by simpa using hf, d2, m2, ?_⟩
  unfold State.spent
  rw [h1, h2]

/-- The unconstrained transport stores nothing by itself (log 11). -/
theorem devWriteOk_free {s : State} (h : s.transport = .free) (x v : Byte) : s.devWriteOk x v = s := by
  unfold State.devWriteOk; rw [h]

theorem response_free {s : State} (h : s.transport = .free) : s.response = Config.freeResponse s.tick := by
  unfold State.response; rw [h]

theorem SameButDevice.response {s t : State} (h : SameButDevice s t) : t.response = s.response := by
  obtain ⟨hf, d, m, rfl⟩ := h
  rw [response_free hf, response_free (by exact hf)]

theorem SameButDevice.store {s t : State} (h : SameButDevice s t) (x v : Byte) :
    SameButDevice (s.devWriteOk x v) (t.devWriteOk x v) := by
  have hf := h.1
  have hf' : t.transport = .free := by obtain ⟨d, m, rfl⟩ := h.2; exact hf
  rwa [devWriteOk_free hf, devWriteOk_free hf']

/-- An update of the block that both make. -/
theorem SameButDevice.update {s t : State} (h : SameButDevice s t) (f : State → State)
    (hf : ∀ (s : State) (d : Byte) (m : Memory),
      (f s).transport = s.transport ∧ f { s with dSel := d, mem := m } = { f s with dSel := d, mem := m }) :
    SameButDevice (f s) (f t) := by
  obtain ⟨ht, d, m, rfl⟩ := h
  exact ⟨(hf s d m).1.trans ht, d, m, (hf s d m).2⟩

theorem simulates_sameButDevice : Simulates SameButDevice where
  answer := by rintro s _ ⟨-, d, m, rfl⟩; rfl
  transferAnswer := by rintro s _ ⟨-, d, m, rfl⟩; rfl
  tick := by rintro s _ ⟨-, d, m, rfl⟩; rfl
  releases := by rintro s _ ⟨-, d, m, rfl⟩; rfl
  doubleFault := by rintro s _ ⟨-, d, m, rfl⟩; rfl
  first := by rintro s _ ⟨-, d, m, rfl⟩; exact ⟨rfl, rfl⟩
  frame := by rintro s _ ⟨-, d, m, rfl⟩; rfl
  data := by rintro s _ ⟨-, d, m, rfl⟩; rfl
  response {s t} h := by rw [h.response]; obtain ⟨-, d, m, rfl⟩ := h; rfl
  setCs l h := h.update (State.setCs l) fun _ _ _ => ⟨rfl, rfl⟩
  log e h := h.update (State.log e) fun _ _ _ => ⟨rfl, rfl⟩
  setPh p h := h.update (State.setPh p) fun _ _ _ => ⟨rfl, rfl⟩
  setPend q h := h.update (State.setPend q) fun _ _ _ => ⟨rfl, rfl⟩
  spent h := h.spent
  setXb x h := h.update (State.setXb x) fun _ _ _ => ⟨rfl, rfl⟩
  store x v h := h.store x v
  take {s t} x v h := by
    rw [h.response]
    have hxb : t.xb = s.xb ∧ t.xn = s.xn := by obtain ⟨-, d, m, rfl⟩ := h; exact ⟨rfl, rfl⟩
    rw [hxb.1, hxb.2]
    exact (h.store x v).update (State.setXb _) fun _ _ _ => ⟨rfl, rfl⟩

theorem simulatesCommand_sameButDevice : SimulatesCommand SameButDevice SameButDevice where
  primitives := simulates_sameButDevice
  between h := h
  skips b := by rintro ⟨-, d, m, rfl⟩; rfl
  params := by rintro s _ ⟨-, d, m, rfl⟩; rfl
  loadRead leg a n h :=
    h.update (fun s => (s.setFrame (loadRead a n s.xb) n).setPh leg.low) fun _ _ _ => ⟨rfl, rfl⟩
  loadWrite leg a v h :=
    h.update (fun s => (s.setFrame (loadWrite a v s.xb) .two).setPh leg.low) fun _ _ _ => ⟨rfl, rfl⟩
  setCurBank b h := h.update (State.setCurBank b) fun _ _ _ => ⟨rfl, rfl⟩

/-- Two runs of a body that are related end in related states. -/
theorem finish_rel {Q : State → State → Prop} {x y : Ran Result} (h : RanRel Q x y)
    (hend : ∀ r s t, Q s t → Q (endCommand r s) (endCommand r t)) : Q (finish x) (finish y) := by
  cases x <;> cases y
  · obtain ⟨rfl, h⟩ := h
    simp only [finish, respond_eq]
    exact hend _ _ _ h
  · exact h.elim
  · exact h.elim
  · exact h

/-- Settles O39: the relation `SameButDevice` holds between the two runs all along. -/
theorem unconstrainedTransportHidesTheDevice : Obligations.UnconstrainedTransportHidesTheDevice := by
  intro i d m s t hfree h
  rw [exec_eq] at h
  injection h with h
  subst h
  have hstart : SameButDevice (latch i s) (latch i { s with dSel := d, mem := m }) := ⟨hfree, d, m, rfl⟩
  obtain ⟨-, d', m', heq⟩ := finish_rel (simulatesCommand_sameButDevice.commandBody i hstart)
    fun r _ _ h => h.update (endCommand r) fun _ _ _ => ⟨rfl, rfl⟩
  refine ⟨_, exec_eq i _, ?_⟩
  unfold runCommand
  rw [heq]

/-! ### The leftovers -/

/-- What no primitive touches, and `SameMachine` does not speak of. -/
def offBus (s : State) : BitVec 3 × Bank × Addr × Byte × List Response × Nat × HostState :=
  (s.cOp, s.cBank, s.cAddr, s.cData, s.rsps, s.drops, s.host)

/-- Two states that agree in all but the exchange buffer. -/
def SameButBuffer (s t : State) : Prop := SameMachine s t ∧ offBus t = offBus s

/-- And whose frames are the same. -/
def SameRunButBuffer (s t : State) : Prop := SameRun s t ∧ offBus t = offBus s

theorem simulates_sameRunButBuffer : Simulates SameRunButBuffer where
  answer h := simulates_sameRun.answer h.1
  transferAnswer h := simulates_sameRun.transferAnswer h.1
  tick h := simulates_sameRun.tick h.1
  releases h := simulates_sameRun.releases h.1
  doubleFault h := simulates_sameRun.doubleFault h.1
  first h := simulates_sameRun.first h.1
  frame h := simulates_sameRun.frame h.1
  data h := simulates_sameRun.data h.1
  response h := simulates_sameRun.response h.1
  setCs l h := ⟨simulates_sameRun.setCs l h.1, h.2⟩
  log e h := ⟨simulates_sameRun.log e h.1, h.2⟩
  setPh p h := ⟨simulates_sameRun.setPh p h.1, h.2⟩
  setPend q h := ⟨simulates_sameRun.setPend q h.1, h.2⟩
  spent h := ⟨simulates_sameRun.spent h.1, by simpa [offBus] using h.2⟩
  setXb x h := ⟨simulates_sameRun.setXb x h.1, h.2⟩
  store x v h := ⟨simulates_sameRun.store x v h.1, by simpa [offBus] using h.2⟩
  take x v h := ⟨simulates_sameRun.take x v h.1, by simpa [offBus] using h.2⟩

theorem simulatesCommand_sameButBuffer : SimulatesCommand SameButBuffer SameRunButBuffer where
  primitives := simulates_sameRunButBuffer
  between h := ⟨h.1.1, h.2⟩
  skips b h := by unfold State.skips; rw [h.1.params, h.1.curBank]
  params h := h.1.params
  loadRead leg a n h := ⟨(h.1.setPh leg.low).loadRead a n, h.2⟩
  loadWrite leg a v h := ⟨(h.1.setPh leg.low).loadWrite a v, h.2⟩
  setCurBank b h := ⟨h.1.setCurBank b, h.2⟩

/-- The end of a command gives the buffer up (R27). -/
theorem SameButBuffer.endCommand_eq {s t : State} (h : SameButBuffer s t) (r : Response) :
    endCommand r t = endCommand r s := by
  obtain ⟨⟨hparams, hcurBank, hph, hpend, hrst, htrace, hcs, htransport, hscript, hgrain, htick, hdSel, hmem⟩,
    hoff⟩ := h
  simp only [offBus, Prod.mk.injEq] at hoff
  obtain ⟨-, -, -, -, hrsps, hdrops, hhost⟩ := hoff
  cases s
  cases t
  subst hparams hcurBank hrst htrace hcs htransport hscript hgrain htick hdSel hmem hrsps hdrops hhost
  rfl

/-- A transaction that waits is not in IDLE (R189). -/
theorem xact_waiting_ne_idle {leg : Leg} {d : Bool} {s t : State} (h : xact leg d s = .waiting t) : t.ph ≠ .idle := by
  obtain ⟨hlow, hdata, hhigh⟩ := leg_not_idle leg
  obtain hp | hp | hp := xact_waiting_ph h <;> rw [hp] <;> assumption

theorem memWrite_waiting_ne_idle {leg : Leg} {a : Addr} {v : Byte} {s t : State}
    (h : memWrite leg a v s = .waiting t) : t.ph ≠ .idle := by
  unfold memWrite at h
  cases e : xact leg false (s.setFrame (loadWrite a v s.xb) .two) with
  | waiting u => rw [e] at h; cases h; exact xact_waiting_ne_idle e
  | done r u => rw [e] at h; cases h

theorem commandAccess_waiting_ne_idle {i : Instr} {s t : State} (h : commandAccess i s = .waiting t) :
    t.ph ≠ .idle := by
  cases i with
  | selb b => cases h
  | rdr a | rdb b a | rdv a | rdvb b a => exact xact_waiting_ne_idle (leg := .acc) (d := true) h
  | wrr a v | wrb b a v => exact memWrite_waiting_ne_idle (leg := .acc) h

/-- A command that waits is not in IDLE. -/
theorem commandBody_waiting_ne_idle {i : Instr} {s t : State} (h : commandBody i s = .waiting t) : t.ph ≠ .idle := by
  cases hb : commandBank i with
  | none =>
    rw [commandBody_of_raw hb] at h
    exact commandAccess_waiting_ne_idle h
  | some b =>
    rw [commandBody_of_bank hb] at h
    unfold selThen at h
    obtain ⟨-, e⟩ | ⟨-, ⟨u, hx, e⟩ | ⟨d, u, -, e⟩ | ⟨c, u, -, e⟩ | ⟨p, u, -, e⟩⟩ := sel_cases b s <;>
      rw [e] at h
    · exact commandAccess_waiting_ne_idle h
    · cases h; exact xact_waiting_ne_idle hx
    · exact commandAccess_waiting_ne_idle h
    · cases h
    · cases h

/-- Settles O45: after latching the two runs differ in the buffer only, and the response gives the buffer up. -/
theorem leftoversAreNeverRead : Obligations.LeftoversAreNeverRead := by
  intro i l q s t h hidle
  have hstart : SameButBuffer (latch i s) (latch i (s.withJunk l q)) :=
    ⟨⟨rfl, rfl, rfl, rfl, rfl, rfl, rfl, rfl, rfl, rfl, rfl, rfl, rfl⟩, rfl⟩
  have hrel := simulatesCommand_sameButBuffer.commandBody i hstart
  obtain ⟨r, u, e, rfl⟩ | e := exec_cases h
  · rw [e] at hrel
    cases e' : commandBody i (latch i (s.withJunk l q)) with
    | waiting v => rw [e'] at hrel; exact hrel.elim
    | done r' v =>
      rw [e'] at hrel
      obtain ⟨rfl, hbuf⟩ := hrel
      rw [exec_eq, runCommand_done e', hbuf.endCommand_eq]
  · exact absurd hidle (commandBody_waiting_ne_idle e)

end Sys2Proof.Proofs
end

section
/-! SUPPORT. The statements of 10_state.md, last part: the encodings, the reset values, the word presented. -/

namespace Sys2Proof.Proofs

open Sys2Proof.Machine Sys2Proof.Laws

/-- The encoding 7 is never taken (R24). -/
theorem phase_code_ne_seven (q : Phase) : q.code ≠ 7 := by cases q <;> decide

/-- Settles O7: each code by its clause of `Phase.code` and `Status.code`. -/
theorem phaseAndStatusCodes : Obligations.PhaseAndStatusCodes :=
  ⟨rfl, rfl, rfl, rfl, rfl, rfl, rfl, phase_code_ne_seven, rfl, fun _ => rfl, fun _ => rfl, rfl⟩

/-- Settles O8: each value by its clause of `State.reset`. -/
theorem resetLeavesSpecValues : Obligations.ResetLeavesSpecValues :=
  ⟨rfl, rfl, rfl, rfl, rfl, rfl, rfl, rfl⟩

/-- A host that has not stopped presents the word at its index (R170). -/
theorem presented_eq_some {s : State} {w : CmdWord} (hs : s.host.stopped = false)
    (hw : s.host.prog[s.host.next]? = some w) : s.presented = some w := by
  unfold State.presented
  rw [hs, hw]
  rfl

/-- A step of grain `invocation` accepts the word presented (R185). -/
theorem step_accepts {s : State} {w : CmdWord} (hr : s.rst = false) (hp : s.ph = .idle) (hw : s.presented = some w)
    (hg : s.grain = .invocation) : step s = .next (accept w s.taken) := by
  simp [step, hr, hp, hw, hg]

/-- A step of grain `command` runs the command presented by its command rule (log 15). -/
theorem step_runs {s : State} {w : CmdWord} {i : Instr} (hr : s.rst = false) (hp : s.ph = .idle)
    (hw : s.presented = some w) (hg : s.grain = .command) (hd : decode w = .cmd i) : step s = exec i s.taken := by
  simp [step, hr, hp, hw, hg, hd]

/-- Settles O11: the word presented is the one at the host's index; what the step does with it, its grain says. -/
theorem stepRunsThePresentedCommand : Obligations.StepRunsThePresentedCommand := by
  intro s w i hr hp hs hprog hd
  have hw := presented_eq_some hs hprog
  exact ⟨fun hg => step_runs hr hp hw hg hd, fun hg => step_accepts hr hp hw hg⟩

end Sys2Proof.Proofs
end

section
/-! SUPPORT. The statements of 20_memory.md, first part: the tokens of a transaction. The access of every command but
SELB is one transaction over its own frame (`commandAccess_xact`); `xact_eq_of_run` and the traces of the states it
passes through give its tokens, and with them the failures a raw command reports and the balance of chip-select. -/

namespace Sys2Proof.Proofs

open Sys2Proof.Machine Sys2Proof.Laws

/-! ### The tokens of a transaction -/

/-- The answers determine the run: no two constructors of `XactRun` fit the same answers. -/
theorem xact_eq_of_run {leg : Leg} {d : Bool} {s : State} {x : Ran Result} (h : XactRun leg d s x) :
    xact leg d s = x := by
  have k := xact_run leg d s
  generalize xact leg d s = y at k ⊢
  cases h <;> cases k <;> simp_all

/-- The token of a data primitive answered ok (R16): what was sent, and for `transfer` the response. -/
def sentToken (leg : Leg) (d : Bool) (s : State) : Event :=
  if d then .transfer (s.xb.frame s.xn) ((asserted leg s).response.frame s.xn) else .write [s.xb.b0, s.xb.b1]

/-- The token of a data primitive that failed with `c`. -/
def failedToken (d : Bool) (s : State) (c : CommErr) : Event :=
  if d then .transferErr (s.xb.frame s.xn) c else .writeErr [s.xb.b0, s.xb.b1] c

theorem highOk_trace (s : State) : (highOk s).trace = s.trace ++ [.high] := by simp [highOk]

theorem highFail_trace (p : Nat) (s : State) : (highFail p s).trace = s.trace ++ [.highErr ⟨p⟩] := by simp [highFail]

theorem assertErr_trace (leg : Leg) (e : Nat) (s : State) :
    (assertErr leg e s).trace = s.trace ++ [.lowErr ⟨e⟩] := by simp [assertErr, lowFail]

theorem assertErrHigh_trace (leg : Leg) (e : Nat) (s : State) :
    (assertErrHigh leg e s).trace = s.trace ++ [.lowErr ⟨e⟩] := assertErr_trace leg e s

theorem asserted_trace (leg : Leg) (s : State) : (asserted leg s).trace = s.trace ++ [.low] := by
  simp [asserted, lowOk]

theorem asserted_xn (leg : Leg) (s : State) : (asserted leg s).xn = s.xn := by simp [asserted, lowOk]

theorem exchanged_trace (leg : Leg) (d : Bool) (s : State) :
    (exchanged leg d s).trace = s.trace ++ [.low, sentToken leg d s] := by
  cases d <;> simp [exchanged, dataOk, asserted_trace, asserted_xb, asserted_xn, sentToken]

theorem exchangeErr_trace (leg : Leg) (d : Bool) (c : Nat) (s : State) :
    (exchangeErr leg d c s).trace = s.trace ++ [.low, failedToken d s ⟨c⟩] := by
  cases d <;> simp [exchangeErr, dataFail, asserted_trace, asserted_xb, asserted_xn, failedToken]

/-! ### The access of a command is one transaction -/

/-- The access frame of `i` is in the buffer (R98). -/
structure AccessFrame (i : Instr) (s : State) : Prop where
  /-- its bytes are those of the command's access -/
  frame : s.xb.frame s.xn = accessFrame i
  /-- a write sends two bytes -/
  write : opIsWrite i.fields.op = true → s.xn = .two
  /-- the mock gives it no meaning exactly when the command reads past 0x7F (R71) -/
  past : (!opIsWrite i.fields.op && s.pastMock) = (s.transport == .mock && readsPastEnd i)

/-- What an access answers with: a write has no data (R96). -/
def accessResult (i : Instr) (r : Result) : Result := if opIsWrite i.fields.op then r.noData else r

/-- A sequence that has returned: both its parts have. -/
theorem bind_eq_done {α β : Type} {x : Ran α} {f : α → State → Ran β} {r : β} {t : State} (h : x.bind f = .done r t) :
    ∃ a u, x = .done a u ∧ f a u = .done r t := by
  cases x with
  | waiting u => cases h
  | done a u => exact ⟨a, u, rfl, h⟩

theorem bind_return {α : Type} (x : Ran α) : x.bind .done = x := by cases x <;> rfl

theorem accessFrame_loadRead_two {i : Instr} {a : Addr} (hf : accessFrame i = [readAddrByte a, 0x00])
    (hw : opIsWrite i.fields.op = false) (hp : readsPastEnd i = false) (s : State) :
    AccessFrame i (s.setFrame (loadRead a .two s.xb) .two) where
  frame := hf.symm
  write h := by simp [hw] at h
  past := by simp [pastMock_loadRead, hp]

theorem accessFrame_loadRead_seven {i : Instr} {a : Addr} (hf : accessFrame i = [readAddrByte a, 0, 0, 0, 0, 0, 0])
    (hw : opIsWrite i.fields.op = false) (hp : readsPastEnd i = decide (0x7F < a.toNat + 5)) (s : State) :
    AccessFrame i (s.setFrame (loadRead a .seven s.xb) .seven) where
  frame := hf.symm
  write h := by simp [hw] at h
  past := by simp [pastMock_loadRead, hp, hw]

theorem accessFrame_loadWrite {i : Instr} {a : Addr} {v : Byte} (hf : accessFrame i = [writeAddrByte a, v])
    (hw : opIsWrite i.fields.op = true) (hp : readsPastEnd i = false) (s : State) :
    AccessFrame i (s.setFrame (loadWrite a v s.xb) .two) where
  frame := hf.symm
  write _ := rfl
  past := by simp [hw, hp]

/-- The access of every command but SELB loads its frame and is one transaction over it (R59, R60). -/
theorem commandAccess_xact {i : Instr} (hi : ∀ b, i ≠ .selb b) (s : State) : ∃ x n, AccessFrame i (s.setFrame x n) ∧
    commandAccess i s =
      (xact .acc (!opIsWrite i.fields.op) (s.setFrame x n)).bind fun r t => .done (accessResult i r) t := by
  cases i with
  | selb b => exact absurd rfl (hi b)
  | rdr a | rdb b a => exact ⟨_, _, accessFrame_loadRead_two rfl rfl rfl s, (bind_return _).symm⟩
  | wrr a v | wrb b a v => exact ⟨_, _, accessFrame_loadWrite rfl rfl rfl s, rfl⟩
  | rdv a | rdvb b a => exact ⟨_, _, accessFrame_loadRead_seven rfl rfl rfl s, (bind_return _).symm⟩

theorem ne_selb_of_raw {i : Instr} (h : commandBank i = none) (b : Bank) : i ≠ .selb b := by
  rintro rfl; cases h

theorem frame_length (x y : XBuf) (n : FrameLen) : (x.frame n).length = (y.frame n).length := by cases n <;> rfl

/-- With the access frame loaded, the token of an answered data primitive is that of the command's access. -/
theorem accessDone_sentToken {i : Instr} {s : State} (h : AccessFrame i s) (leg : Leg) :
    accessDone i (sentToken leg (!opIsWrite i.fields.op) s) := by
  unfold accessDone sentToken
  rw [← h.frame]
  cases hw : opIsWrite i.fields.op with
  | true => simp [h.write hw, XBuf.frame]
  | false => exact ⟨_, frame_length _ _ _, rfl⟩

theorem accessFailed_eq_failedToken {i : Instr} {s : State} (h : AccessFrame i s) (c : CommErr) :
    accessFailed i c = failedToken (!opIsWrite i.fields.op) s c := by
  unfold accessFailed failedToken
  rw [← h.frame]
  cases hw : opIsWrite i.fields.op with
  | true => simp [h.write hw, XBuf.frame]
  | false => rfl

/-- The data primitive of the access answers as the transport does, if the environment gives the command a meaning. -/
theorem dataAnswerAt_of_commandServed {i : Instr} {s : State} (h : AccessFrame i s) (hs : s.Served i) :
    dataAnswerAt (!opIsWrite i.fields.op) s = s.answerAt 1 := by
  refine dataAnswerAt_of_served (h.past.trans ?_)
  cases ht : s.transport with
  | free => rfl
  | mock => exact hs ht

/-! ### A block read is not checked -/

/-- An access whose assertion is answered ok has sent or attempted its frame by the time it returns. -/
theorem commandAccess_attempts {i : Instr} (hi : ∀ b, i ≠ .selb b) {s u : State} {r : Result}
    (h0 : s.answerAt 0 = .ok) (h : commandAccess i s = .done r u) :
    ∃ e es, u.trace = s.trace ++ .low :: e :: es ∧ (accessDone i e ∨ ∃ c, e = accessFailed i c) := by
  obtain ⟨x, n, hf, e⟩ := commandAccess_xact hi s
  obtain ⟨r', t, hx, hd⟩ := bind_eq_done (e.symm.trans h)
  cases hd
  have hrun := xact_run .acc (!opIsWrite i.fields.op) (s.setFrame x n)
  rw [hx] at hrun
  have hdone := accessDone_sentToken hf .acc
  have hfail := accessFailed_eq_failedToken hf
  cases hrun with
  | lowFailHeld _ k0 | lowFailHighOk _ k0 | lowFailHighFail _ _ k0 => rw [setFrame_answerAt, h0] at k0; cases k0
  | allOk => exact ⟨_, [.high], by simp [highOk_trace, exchanged_trace], .inl hdone⟩
  | okHighFail p => exact ⟨_, [.highErr ⟨p⟩], by simp [highFail_trace, exchanged_trace], .inl hdone⟩
  | failHighOk c => exact ⟨_, [.high], by simp [highOk_trace, exchangeErr_trace, hfail], .inr ⟨⟨c⟩, rfl⟩⟩
  | failHighFail c p =>
    exact ⟨_, [.highErr ⟨p⟩], by simp [highFail_trace, exchangeErr_trace, hfail], .inr ⟨⟨c⟩, rfl⟩⟩

/-- A command that is in IDLE has ended: its body has returned. -/
theorem exec_ended {i : Instr} {s t : State} (h : exec i s = .next t) (hidle : t.ph = .idle) :
    ∃ r u, commandBody i (latch i s) = .done r u ∧ t = endCommand (resultResponse r) u := by
  obtain hd | hw := exec_cases h
  · exact hd
  · exact absurd hidle (commandBody_waiting_ne_idle hw)

/-- Settles O21: the access of a block read is a transaction like any other, whatever its address. -/
theorem blockReadIsNotChecked : Obligations.BlockReadIsNotChecked := by
  refine ⟨fun a s h0 => ⟨_, exec_eq _ s, fun hidle => ?_⟩, fun b a s hs h4 => ⟨_, exec_eq _ s, fun hidle => ?_⟩⟩
  · obtain ⟨r, u, hu, e⟩ := exec_ended (exec_eq _ s) hidle
    have key := commandAccess_attempts (i := .rdv a) nofun (s := latch (.rdv a) s) h0 hu
    rw [e]
    exact key
  · obtain ⟨r, u, hu, e⟩ := exec_ended (exec_eq _ s) hidle
    obtain ⟨v, hv, hone, -⟩ := sel_ok (s := latch (.rdvb b a) s) b hs (AllOk.mono h4 (by omega))
    rw [commandBody_of_bank rfl, selThen_ok hv] at hu
    have h0 : v.answerAt 0 = .ok := by rw [hone.answers]; exact h4 3 (by omega)
    have key := commandAccess_attempts (i := .rdvb b a) nofun h0 hu
    rw [hone.trace] at key
    rw [e]
    exact key

/-! ### Which failure a raw command reports -/

/-- A raw command is one transaction from a state `v` with its frame loaded; when that returns, the command has
ended. -/
theorem raw_ended {i : Instr} (hi : commandBank i = none) (s : State) : ∃ v : State,
    AccessFrame i v ∧ v.trace = s.trace ∧ v.params = s.params ∧ v.transport = s.transport ∧
    (∀ k, v.answerAt k = s.answerAt k) ∧
    ∀ r q u, XactRun .acc (!opIsWrite i.fields.op) v (.done r u) → accessResult i r = q →
      ∃ t, exec i s = .next t ∧ Ended s t (resultResponse q) ∧ t.trace = u.trace := by
  obtain ⟨x, n, hf, e⟩ := commandAccess_xact (ne_selb_of_raw hi) (latch i s)
  refine ⟨(latch i s).setFrame x n, hf, rfl, rfl, rfl, fun _ => rfl, fun r q u h hq => ?_⟩
  have hx := xact_eq_of_run h
  have hk := (xact_keeps .acc (!opIsWrite i.fields.op) ((latch i s).setFrame x n)).body
  rw [hx] at e hk
  have hbody : commandBody i (latch i s) = .done q u := hq ▸ (commandBody_of_raw hi _).trans e
  refine ⟨_, exec_eq i s, ?_⟩
  rw [runCommand_done hbody]
  exact ⟨ended_endCommand _ (((latch_body i s).trans (setFrame_body x n _)).trans hk), rfl⟩

theorem accessResult_pin (i : Instr) (p : PinErr) : accessResult i (.pin p) = .pin p := by
  unfold accessResult; split <;> rfl

theorem accessResult_comm (i : Instr) (c : CommErr) : accessResult i (.comm c) = .comm c := by
  unfold accessResult; split <;> rfl

/-- Settles O29: each clause is one constructor of `XactRun`. -/
theorem rawCommandReportsTheFailingCall : Obligations.RawCommandReportsTheFailingCall := by
  intro i s hi
  obtain ⟨v, hf, htr, hpar, htra, hans, hend⟩ := raw_ended hi s
  have hfail (c : Nat) (h : s.answerAt 1 = .fail c) : dataAnswerAt (!opIsWrite i.fields.op) v = .fail c := by
    rw [dataAnswerAt_of_ne_ok (by simp [hans, h]), hans, h]
  refine ⟨fun e h0 hr h1 => ?_, fun e h0 hr => ?_, fun c h0 h1 h2 => ?_, fun p hs h0 h1 h2 => ?_,
    fun c p h0 h1 h2 => ?_⟩
  all_goals rw [← hans] at h0
  · rw [← hpar] at hr
    cases h1' : s.answerAt 1 with
    | silent => exact absurd h1' h1
    | ok =>
      obtain ⟨t, he, hd, ht⟩ := hend _ _ _ (.lowFailHighOk e h0 hr (by rw [hans, h1'])) (accessResult_pin i _)
      exact ⟨t, .high, he, hd, by simp [ht, highOk_trace, assertErrHigh_trace, htr], .inl ⟨rfl, rfl⟩⟩
    | fail p =>
      obtain ⟨t, he, hd, ht⟩ := hend _ _ _ (.lowFailHighFail e p h0 hr (by rw [hans, h1'])) (accessResult_pin i _)
      exact ⟨t, .highErr ⟨p⟩, he, hd, by simp [ht, highFail_trace, assertErrHigh_trace, htr], .inr ⟨p, rfl, rfl⟩⟩
  · rw [← hpar] at hr
    obtain ⟨t, he, hd, ht⟩ := hend _ _ _ (.lowFailHeld e h0 hr) (accessResult_pin i _)
    exact ⟨t, he, hd, by rw [ht, assertErr_trace, htr]⟩
  · obtain ⟨t, he, hd, ht⟩ := hend _ _ _ (.failHighOk c h0 (hfail c h1) (by rw [hans, h2])) (accessResult_comm i _)
    exact ⟨t, he, hd, by simp [ht, highOk_trace, exchangeErr_trace, htr, accessFailed_eq_failedToken hf]⟩
  · have hv : v.Served i := fun hm => hs (htra.symm.trans hm)
    have h1' := (dataAnswerAt_of_commandServed hf hv).trans ((hans 1).trans h1)
    obtain ⟨t, he, hd, ht⟩ := hend _ _ _ (.okHighFail p h0 h1' (by rw [hans, h2])) (accessResult_pin i _)
    exact ⟨t, _, he, hd, accessDone_sentToken hf .acc, by simp [ht, highFail_trace, exchanged_trace, htr]⟩
  · obtain ⟨t, he, hd, ht⟩ := hend _ _ _ (.failHighFail c p _ h0 (hfail c h1) (by rw [hans, h2]) rfl) rfl
    refine ⟨t, he, ?_, by simp [ht, highFail_trace, exchangeErr_trace, htr, accessFailed_eq_failedToken hf]⟩
    rw [hpar] at hd
    cases hdf : s.params.doubleFault with
    | comm => simpa [hdf, accessResult_comm, resultResponse] using hd
    | pin => simpa [hdf, accessResult_pin, resultResponse] using hd

/-! ### Chip-select is released -/

/-- The tokens of what has returned: chip-select was deasserted as often as asserted if RELEASE_ON_ASSERT_FAIL, else as
often as an assertion succeeded (R61, R62). -/
structure Balanced (p : Params) (es : List Event) : Prop where
  released : p.releaseOnAssertFail = true → highCount es = lowCount es
  held : p.releaseOnAssertFail = false → highCount es = es.count .low

theorem Balanced.nil (p : Params) : Balanced p [] := ⟨fun _ => rfl, fun _ => rfl⟩

theorem Balanced.append {p : Params} {es fs : List Event} (h : Balanced p es) (k : Balanced p fs) :
    Balanced p (es ++ fs) where
  released hr := by
    have h1 := h.released hr
    have k1 := k.released hr
    simp only [highCount, lowCount, List.countP_append] at *
    omega
  held hr := by
    have h1 := h.held hr
    have k1 := k.held hr
    simp only [highCount, List.countP_append, List.count_append] at *
    omega

/-- From `s` to `t` balanced tokens were added to the trace. -/
def AddsBalanced (s t : State) : Prop := t.params = s.params ∧ ∃ es, t.trace = s.trace ++ es ∧ Balanced s.params es

theorem AddsBalanced.refl (s : State) : AddsBalanced s s := ⟨rfl, [], by simp, .nil _⟩

theorem AddsBalanced.trans {s t u : State} (h : AddsBalanced s t) (k : AddsBalanced t u) : AddsBalanced s u := by
  obtain ⟨hp, es, he, hb⟩ := h
  obtain ⟨kp, fs, ke, kb⟩ := k
  rw [hp] at kb
  exact ⟨kp.trans hp, es ++ fs, by rw [ke, he, List.append_assoc], hb.append kb⟩

/-- The tokens of the data primitive are no chip-select tokens. -/
theorem sentToken_not_cs (leg : Leg) (d : Bool) (s : State) :
    (sentToken leg d s).isLow = false ∧ (sentToken leg d s).isHigh = false := by cases d <;> exact ⟨rfl, rfl⟩

theorem failedToken_not_cs (d : Bool) (s : State) (c : CommErr) :
    (failedToken d s c).isLow = false ∧ (failedToken d s c).isHigh = false := by cases d <;> exact ⟨rfl, rfl⟩

/-- An assertion that was answered ok is followed by one deassertion. -/
theorem balanced_exchange {p : Params} {e h : Event} (he : e.isLow = false ∧ e.isHigh = false)
    (hh : h = .high ∨ ∃ q, h = .highErr q) : Balanced p [.low, e, h] ∧
      highCount [.low, e, h] = 1 ∧ lowCount [.low, e, h] = 1 := by
  obtain ⟨hlow, hhigh⟩ := he
  cases e with
  | low | lowErr => cases hlow
  | high | highErr => cases hhigh
  | write | writeErr | transfer | transferErr =>
    obtain rfl | ⟨q, rfl⟩ := hh <;> exact ⟨⟨fun _ => rfl, fun _ => rfl⟩, rfl, rfl⟩

/-- An assertion that failed is followed by one deassertion. -/
theorem balanced_releasedFail {p : Params} (hp : p.releaseOnAssertFail = true) {e : PinErr} {h : Event}
    (hh : h = .high ∨ ∃ q, h = .highErr q) : Balanced p [.lowErr e, h] ∧
      highCount [.lowErr e, h] = 1 ∧ lowCount [.lowErr e, h] = 1 := by
  obtain rfl | ⟨q, rfl⟩ := hh <;> exact ⟨⟨fun _ => rfl, by simp [hp]⟩, rfl, rfl⟩

/-- A transaction that returns adds balanced tokens (R61, R62). -/
theorem xact_balanced {leg : Leg} {d : Bool} {s t : State} {r : Result} (h : xact leg d s = .done r t) :
    ∃ es, t.trace = s.trace ++ es ∧ Balanced s.params es ∧ lowCount es = 1 ∧
      (s.params.releaseOnAssertFail = true ∨ s.answerAt 0 = .ok → highCount es = 1) := by
  have hx := xact_run leg d s
  rw [h] at hx
  have sent (h : Event) := balanced_exchange (p := s.params) (h := h) (sentToken_not_cs leg d s)
  have failed (c : CommErr) (h : Event) := balanced_exchange (p := s.params) (h := h) (failedToken_not_cs d s c)
  cases hx with
  | lowFailHeld e h0 hr =>
    exact ⟨_, assertErr_trace leg e s, ⟨by simp [hr], fun _ => rfl⟩, rfl, by simp [hr, h0]⟩
  | lowFailHighOk e h0 hr =>
    obtain ⟨hb, hh, hl⟩ := balanced_releasedFail (e := ⟨e⟩) hr (.inl rfl)
    exact ⟨_, by simp [highOk_trace, assertErrHigh_trace], hb, hl, fun _ => hh⟩
  | lowFailHighFail e e' h0 hr =>
    obtain ⟨hb, hh, hl⟩ := balanced_releasedFail (e := ⟨e⟩) hr (.inr ⟨⟨e'⟩, rfl⟩)
    exact ⟨_, by simp [highFail_trace, assertErrHigh_trace], hb, hl, fun _ => hh⟩
  | allOk =>
    obtain ⟨hb, hh, hl⟩ := sent .high (.inl rfl)
    exact ⟨_, by simp [highOk_trace, exchanged_trace], hb, hl, fun _ => hh⟩
  | okHighFail p =>
    obtain ⟨hb, hh, hl⟩ := sent (.highErr ⟨p⟩) (.inr ⟨_, rfl⟩)
    exact ⟨_, by simp [highFail_trace, exchanged_trace], hb, hl, fun _ => hh⟩
  | failHighOk c =>
    obtain ⟨hb, hh, hl⟩ := failed ⟨c⟩ .high (.inl rfl)
    exact ⟨_, by simp [highOk_trace, exchangeErr_trace], hb, hl, fun _ => hh⟩
  | failHighFail c p =>
    obtain ⟨hb, hh, hl⟩ := failed ⟨c⟩ (.highErr ⟨p⟩) (.inr ⟨_, rfl⟩)
    exact ⟨_, by simp [highFail_trace, exchangeErr_trace], hb, hl, fun _ => hh⟩

/-- The tokens of an access that returns. -/
theorem commandAccess_balanced {i : Instr} (hi : ∀ b, i ≠ .selb b) {s t : State} {r : Result}
    (h : commandAccess i s = .done r t) : ∃ es, t.trace = s.trace ++ es ∧ Balanced s.params es ∧ lowCount es = 1 ∧
      (s.params.releaseOnAssertFail = true ∨ s.answerAt 0 = .ok → highCount es = 1) := by
  obtain ⟨x, n, -, e⟩ := commandAccess_xact hi s
  obtain ⟨r', u, hx, hd⟩ := bind_eq_done (e.symm.trans h)
  cases hd
  exact xact_balanced (s := s.setFrame x n) hx

theorem commandAccess_addsBalanced {i : Instr} {s t : State} {r : Result} (h : commandAccess i s = .done r t) :
    AddsBalanced s t := by
  have hp := (commandAccess_keeps BodyKeeps.refl memWrite_body memRead_body i s).params
  rw [h] at hp
  by_cases hi : ∃ b, i = .selb b
  · obtain ⟨b, rfl⟩ := hi
    cases h
    exact .refl s
  · obtain ⟨es, he, hb, -⟩ := commandAccess_balanced (fun b hb => hi ⟨b, hb⟩) h
    exact ⟨hp, es, he, hb⟩

theorem sel_addsBalanced {b : Bank} {s t : State} {r : Result} (h : sel b s = .done r t) : AddsBalanced s t := by
  have key {r' : Result} {u : State} (hx : selectXact b s = .done r' u) : AddsBalanced s u := by
    obtain ⟨es, he, hb, -⟩ := xact_balanced hx
    exact ⟨(xactKeeps_of_done hx).params, es, he, hb⟩
  obtain ⟨-, e⟩ | ⟨-, ⟨u, hx, e⟩ | ⟨d, u, hx, e⟩ | ⟨c, u, hx, e⟩ | ⟨p, u, hx, e⟩⟩ := sel_cases b s <;>
    rw [e] at h <;> cases h
  · exact .refl s
  · exact (key hx).trans ⟨rfl, [], by simp, .nil _⟩
  · exact key hx
  · exact key hx

/-- A select and what follows it has returned: the select has, and the access has too unless the select failed. -/
theorem selThen_done {b : Bank} {f : State → Ran Result} {s t : State} {r : Result} (h : selThen b f s = .done r t) :
    ∃ r' u, sel b s = .done r' u ∧ (f u = .done r t ∨ t = u) := by
  obtain ⟨r', u, hu, hd⟩ := bind_eq_done h
  refine ⟨r', u, hu, ?_⟩
  cases r' with
  | ok d => exact .inl hd
  | comm c => cases hd; exact .inr rfl
  | pin p => cases hd; exact .inr rfl

theorem commandBody_addsBalanced {i : Instr} {s t : State} {r : Result} (h : commandBody i s = .done r t) :
    AddsBalanced s t := by
  cases hb : commandBank i with
  | none => exact commandAccess_addsBalanced ((commandBody_of_raw hb s).symm.trans h)
  | some b =>
    obtain ⟨r', u, hs, ha | rfl⟩ := selThen_done ((commandBody_of_bank hb s).symm.trans h)
    · exact (sel_addsBalanced hs).trans (commandAccess_addsBalanced ha)
    · exact sel_addsBalanced hs

/-- Settles O42: every transaction that returns is balanced, and a raw command is one transaction. -/
theorem chipSelectIsReleasedOnEveryPath : Obligations.ChipSelectIsReleasedOnEveryPath := by
  intro i s t h hidle
  obtain ⟨r, u, hu, rfl⟩ := exec_ended h hidle
  obtain ⟨-, es, he, hb⟩ := commandBody_addsBalanced hu
  refine ⟨es, he, hb.released, hb.held, fun hraw => ?_⟩
  obtain ⟨fs, hf, -, hlow, hhigh⟩ :=
    commandAccess_balanced (ne_selb_of_raw hraw) ((commandBody_of_raw hraw _).symm.trans hu)
  obtain rfl : es = fs := List.append_cancel_left (he.symm.trans hf)
  exact ⟨hlow, hhigh⟩

end Sys2Proof.Proofs
end

section
/-! SUPPORT. The statements of 20_memory.md, second part: the device. A command ends or waits with the device of its
body (`exec_ran`); what its select and its access store in the mock, `sel_stores`, `sel_mem`, `memRead_device` and
`memWrite_stores` say from the answers. -/

namespace Sys2Proof.Proofs

open Sys2Proof.Machine Sys2Proof.Laws

/-! ### A command's device is its body's -/

/-- Latching, and the end of a command, touch neither the device nor `cur_bank`. -/
theorem exec_ran (i : Instr) (s : State) : ∃ t, exec i s = .next t ∧
    t.dSel = (ranState (commandBody i (latch i s))).dSel ∧ t.mem = (ranState (commandBody i (latch i s))).mem ∧
    t.curBank = (ranState (commandBody i (latch i s))).curBank := by
  refine ⟨_, exec_eq i s, ?_⟩
  cases e : commandBody i (latch i s) with
  | done r u => rw [runCommand_done e]; exact ⟨rfl, rfl, rfl⟩
  | waiting u => rw [runCommand_waiting e]; exact ⟨rfl, rfl, rfl⟩

theorem exec_device {i : Instr} {s t : State} (h : exec i s = .next t) :
    t.dSel = (ranState (commandBody i (latch i s))).dSel ∧ t.mem = (ranState (commandBody i (latch i s))).mem := by
  obtain ⟨t', h', hsel, hmem, -⟩ := exec_ran i s
  obtain rfl : t' = t := by rw [h] at h'; cases h'; rfl
  exact ⟨hsel, hmem⟩

/-- Only the bank-select register lies outside `d_reg` (R36, R54). -/
theorem sameDeviceBut_of_mem {s t : State} (h : t.mem = s.mem) : SameDeviceBut 0 0x7F s t := by
  intro b a hk
  have ha : a ≠ bankSelAddr := by rintro rfl; exact hk rfl
  simp [State.devByte, ha, h]

/-! ### Raw reads and raw writes -/

/-- Settles O36: a read transaction stores nothing. -/
theorem rawReadsLeaveTheDevice : Obligations.RawReadsLeaveTheDevice := by
  intro i a s t hm hi h
  obtain ⟨hsel, hmem⟩ := exec_device h
  obtain rfl | rfl := hi
  · obtain ⟨ksel, kmem⟩ := memRead_device .acc a .two (s := latch (.rdr a) s) hm
    exact SameDevice.of_eq (hsel.trans ksel) (hmem.trans kmem)
  · obtain ⟨ksel, kmem⟩ := memRead_device .acc a .seven (s := latch (.rdv a) s) hm
    exact SameDevice.of_eq (hsel.trans ksel) (hmem.trans kmem)

theorem sel_body (b : Bank) (s : State) : BodyKeeps s (ranState (sel b s)) :=
  sel_keeps BodyKeeps.refl BodyKeeps.trans setCurBank_body memWrite_body b s

/-- A select and an access that stores nothing outside 0x7F store nothing there together. -/
theorem selThen_mem {f : State → Ran Result} (hf : ∀ u : State, u.transport = .mock → (ranState (f u)).mem = u.mem)
    (b : Bank) {s : State} (hm : s.transport = .mock) : (ranState (selThen b f s)).mem = s.mem := by
  have hk := (sel_body b s).transport.trans hm
  have hs := sel_mem b hm
  unfold selThen
  cases e : sel b s with
  | waiting u => rw [e] at hs; exact hs
  | done r u =>
    rw [e] at hk hs
    cases r with
    | ok d => exact (hf u hk).trans hs
    | comm c => exact hs
    | pin p => exact hs

/-- Settles O37: `WRR` is one write, the other three are a select and at most a read. -/
theorem storesTouchOnlyTheirTarget : Obligations.StoresTouchOnlyTheirTarget := by
  refine ⟨fun a v s t hm h => ?_, fun i b a s t hm hi h => ?_⟩
  · obtain ⟨hsel, hmem⟩ := exec_device h
    exact ((memWrite_device .acc a v (s := latch (.wrr a v) s) hm).congr hsel hmem).but
  · obtain ⟨-, hmem⟩ := exec_device h
    refine sameDeviceBut_of_mem (hmem.trans ?_)
    obtain rfl | rfl | rfl := hi
    · exact sel_mem b (s := latch (.selb b) s) hm
    · exact selThen_mem (fun u hu => (memRead_device .acc a .two hu).2) b (s := latch (.rdb b a) s) hm
    · exact selThen_mem (fun u hu => (memRead_device .acc a .seven hu).2) b (s := latch (.rdvb b a) s) hm

/-! ### A failed write -/

/-- The device recovers the bank from its code, for every shift (R35, R101). -/
theorem bankField_bankCode (p : Params) (b : Bank) : bankField p (bankCode p b) = b := by
  have key : ∀ (k : Fin 7) (b : Bank), ((b.setWidth 8 <<< k.val) >>> k.val : Byte).setWidth 2 = b := by decide
  exact key p.bankSelShift b

/-- An access whose assertion is not answered ok stores nothing. -/
theorem commandAccess_notAsserted (i : Instr) {s : State} (hm : s.transport = .mock) (h : s.answerAt 0 ≠ .ok) :
    (ranState (commandAccess i s)).dSel = s.dSel ∧ (ranState (commandAccess i s)).mem = s.mem := by
  cases i with
  | selb b => exact ⟨rfl, rfl⟩
  | rdr a | rdb b a => exact memRead_device .acc a .two hm
  | rdv a | rdvb b a => exact memRead_device .acc a .seven hm
  | wrr a v | wrb b a v => exact (memWrite_stores .acc a v hm).2 (.inl h)

/-- A select that is neither skipped nor answered ok throughout is all its command does (R143, R150). -/
theorem ranState_selThen_of_failed {b : Bank} {s : State} (hs : s.skips b = false) (h : ¬ s.AllOk 3)
    (f : State → Ran Result) : ranState (selThen b f s) = ranState (sel b s) := by
  unfold selThen
  obtain ⟨k, -⟩ | ⟨-, ⟨u, -, e⟩ | ⟨d, u, hx, -⟩ | ⟨c, u, -, e⟩ | ⟨p, u, -, e⟩⟩ := sel_cases b s
  · rw [hs] at k; cases k
  · rw [e]; rfl
  · exact absurd (xact_ok_data hx).2.2 h
  · rw [e]; rfl
  · rw [e]; rfl

theorem not_allOk {s : State} {n k : Nat} (hk : k < n) (h : s.answerAt k ≠ .ok) : ¬ s.AllOk n := fun hok => h (hok k hk)

/-- A command whose select fails: its device is that of its select, and `cur_bank` stays (R143). -/
theorem commandBody_failedSelect {i : Instr} {b : Bank} {s : State} (hb : commandBank i = some b)
    (hs : s.skips b = false) (h : ¬ s.AllOk 3) : ranState (commandBody i s) = ranState (sel b s) ∧
      (ranState (commandBody i s)).curBank = s.curBank := by
  have e : ranState (commandBody i s) = ranState (sel b s) := by
    rw [commandBody_of_bank hb]; exact ranState_selThen_of_failed hs h _
  refine ⟨e, ?_⟩
  rw [e]
  obtain hc | ⟨hok, -⟩ := sel_curBank b s
  · exact hc
  · exact absurd hok h

/-- Such a select stores its byte if its assertion and its write were answered ok, else nothing (R64, R75). -/
theorem commandBody_failedSelect_device {i : Instr} {b : Bank} {s : State} (hm : s.transport = .mock)
    (hb : commandBank i = some b) (hs : s.skips b = false) (h : ¬ s.AllOk 3) :
    (ranState (commandBody i s)).mem = s.mem ∧
    (s.answerAt 0 = .ok → s.answerAt 1 = .ok → (ranState (commandBody i s)).dSel = bankCode s.params b) ∧
    (s.answerAt 0 ≠ .ok ∨ s.answerAt 1 ≠ .ok → (ranState (commandBody i s)).dSel = s.dSel) := by
  obtain ⟨e, -⟩ := commandBody_failedSelect hb hs h
  rw [e]
  exact ⟨sel_mem b hm, sel_stores hm hs⟩

/-- `WRR`, and `WRB` whose select is skipped, are one write. -/
theorem commandBody_write {i : Instr} {a : Addr} {v : Byte} {s : State}
    (hi : i = .wrr a v ∨ ∃ b, i = .wrb b a v ∧ s.skips b = true) : commandBody i s = memWrite .acc a v s := by
  obtain rfl | ⟨b, rfl, hs⟩ := hi
  · rfl
  · exact selThen_ok (sel_skips hs)

/-- `WRR`, or `WRB` whose select is skipped: the answer to `write` decides whether its byte is stored (R64, R75). -/
theorem exec_write_device {i : Instr} {a : Addr} {v : Byte} {s : State} (hm : s.transport = .mock)
    (hi : i = .wrr a v ∨ ∃ b, i = .wrb b a v ∧ s.skips b = true) (h0 : s.answerAt 0 = .ok) :
    (∀ c, s.answerAt 1 = .fail c → ∃ t : State, exec i s = .next t ∧ SameDevice s t) ∧
    (∀ p, s.answerAt 1 = .ok → s.answerAt 2 = .fail p →
      ∃ t : State, exec i s = .next t ∧ t.devByte s.dBank a = v ∧ SameDeviceBut s.dBank a s t) := by
  obtain ⟨t, ht, hsel, hmem, -⟩ := exec_ran i s
  rw [commandBody_write (s := latch i s) hi] at hsel hmem
  obtain ⟨stored, kept⟩ := memWrite_stores .acc a v (s := latch i s) hm
  refine ⟨fun c h1 => ⟨t, ht, ?_⟩, fun p h1 _ => ⟨t, ht, ?_, ?_⟩⟩
  · obtain ⟨ksel, kmem⟩ := kept (.inr (by simp [h1]))
    exact SameDevice.of_eq (hsel.trans ksel) (hmem.trans kmem)
  all_goals obtain ⟨ksel, kmem⟩ := stored h0 h1
  · rw [devByte_congr (hsel.trans ksel) (hmem.trans kmem)]
    exact devStore_same a v (latch i s)
  · exact StoredAtMost.but (s := latch i s) (.inr ⟨v, hsel.trans ksel, hmem.trans kmem⟩)

/-- A select whose write fails leaves the device; one whose deassertion alone fails has moved it to bank `b`, and the
shadow stays (R143). -/
theorem exec_failedSelect_device {i : Instr} {b : Bank} {s : State} (hm : s.transport = .mock)
    (hb : commandBank i = some b) (hs : s.skips b = false) (h0 : s.answerAt 0 = .ok) :
    (∀ c, s.answerAt 1 = .fail c → ∃ t : State, exec i s = .next t ∧ SameDevice s t ∧ t.curBank = s.curBank) ∧
    (∀ p, s.answerAt 1 = .ok → s.answerAt 2 = .fail p →
      ∃ t : State, exec i s = .next t ∧ t.dSel = bankCode s.params b ∧ t.curBank = s.curBank ∧
        SameDeviceBut 0 0x7F s t) := by
  obtain ⟨t, ht, hsel, hmem, hcur⟩ := exec_ran i s
  have body (h : ¬ s.AllOk 3) := commandBody_failedSelect (s := latch i s) hb hs h
  have device (h : ¬ s.AllOk 3) := commandBody_failedSelect_device (s := latch i s) hm hb hs h
  refine ⟨fun c h1 => ?_, fun p h1 h2 => ?_⟩
  · have h : ¬ s.AllOk 3 := not_allOk (k := 1) (by omega) (by simp [h1])
    obtain ⟨kmem, -, kept⟩ := device h
    have ksel := kept (.inr (by simp [h1]))
    exact ⟨t, ht, SameDevice.of_eq (hsel.trans ksel) (hmem.trans kmem), hcur.trans (body h).2⟩
  · have h : ¬ s.AllOk 3 := not_allOk (k := 2) (by omega) (by simp [h2])
    obtain ⟨kmem, stored, -⟩ := device h
    exact ⟨t, ht, hsel.trans (stored h0 h1), hcur.trans (body h).2, sameDeviceBut_of_mem (hmem.trans kmem)⟩

/-- After a select that is OK the access of `WRB` stores at `a` of bank `b`, or nothing (R64, R75). -/
theorem exec_failedAccess_device {b : Bank} (a : Addr) (v : Byte) {s : State} (hm : s.transport = .mock)
    (hs : s.skips b = false) (h3 : s.AllOk 3) :
    (∀ c, s.answerAt 3 = .fail c ∨ (s.answerAt 3 = .ok ∧ s.answerAt 4 = .fail c) →
      ∃ t : State, exec (.wrb b a v) s = .next t ∧ t.dSel = bankCode s.params b ∧ t.curBank = b ∧
        SameDeviceBut 0 0x7F s t) ∧
    (∀ p, s.answerAt 3 = .ok → s.answerAt 4 = .ok → s.answerAt 5 = .fail p →
      ∃ t : State, exec (.wrb b a v) s = .next t ∧ t.devByte b a = v ∧ t.curBank = b ∧
        (a ≠ 0x7F → t.dSel = bankCode s.params b) ∧
        ∀ (b' : Bank) (a' : Addr), a' ≠ 0x7F → regKey b' a' ≠ regKey b a → t.devByte b' a' = s.devByte b' a') := by
  obtain ⟨t, ht, hsel, hmem, hcur⟩ := exec_ran (.wrb b a v) s
  obtain ⟨u, hu, hone, ucur, udev⟩ := sel_ok (s := latch (.wrb b a v) s) b hs h3
  obtain ⟨usel, umem⟩ := udev hm
  have ubank : u.dBank = b := by
    unfold State.dBank
    rw [usel, hone.params]
    exact bankField_bankCode s.params b
  have hbody : commandBody (.wrb b a v) (latch (.wrb b a v) s) = memWrite .acc a v u := selThen_ok hu
  rw [hbody] at hsel hmem hcur
  obtain ⟨stored, kept⟩ := memWrite_stores .acc a v (hone.transport.trans hm)
  rw [hone.answers, hone.answers] at stored kept
  have hcur' : t.curBank = b := hcur.trans ((commandAccess_bankKept (.wrr a v) u).1.trans ucur)
  refine ⟨fun c hc => ⟨t, ht, ?_⟩, fun p k3 k4 _ => ⟨t, ht, ?_⟩⟩
  · have hfail : s.answerAt 3 ≠ .ok ∨ s.answerAt 4 ≠ .ok := by
      obtain h | ⟨-, h⟩ := hc
      · exact .inl (by simp [h])
      · exact .inr (by simp [h])
    obtain ⟨ksel, kmem⟩ := kept hfail
    exact ⟨hsel.trans (ksel.trans usel), hcur', sameDeviceBut_of_mem (hmem.trans (kmem.trans umem))⟩
  · obtain ⟨ksel, kmem⟩ := stored k3 k4
    have dev := devByte_congr (hsel.trans ksel) (hmem.trans kmem)
    refine ⟨?_, hcur', fun ha => ?_, fun b' a' ha' hk => ?_⟩
    · rw [dev, ← ubank]
      exact devStore_same a v u
    · rw [hsel, ksel, devStore_reg ha]
      exact usel
    · have hother := devStore_other a v u b' a' (by rwa [ubank])
      rw [dev, hother]
      exact sameDeviceBut_of_mem umem b' a' fun hk' => regKey_ne_sel b' 0 ha' hk'

/-- A command whose first assertion fails stores nothing, whether that is the select's or the access's. -/
theorem commandBody_notAsserted (i : Instr) {s : State} (hm : s.transport = .mock) (h : s.answerAt 0 ≠ .ok) :
    (ranState (commandBody i s)).dSel = s.dSel ∧ (ranState (commandBody i s)).mem = s.mem := by
  cases hb : commandBank i with
  | none => rw [commandBody_of_raw hb]; exact commandAccess_notAsserted i hm h
  | some b =>
    cases hs : s.skips b with
    | true => rw [commandBody_of_bank hb, selThen_ok (sel_skips hs)]; exact commandAccess_notAsserted i hm h
    | false =>
      obtain ⟨hmem, -, kept⟩ := commandBody_failedSelect_device hm hb hs (not_allOk (k := 0) (by omega) h)
      exact ⟨kept (.inl h), hmem⟩

/-- Settles O32: what the mock stores is decided by the answers to the assertion and to the write. -/
theorem mockWriteFailureLeavesTheDevice : Obligations.MockWriteFailureLeavesTheDevice := by
  refine ⟨fun _ _ _ _ => exec_write_device, fun _ _ _ => exec_failedSelect_device,
    fun _ a v _ => exec_failedAccess_device a v, fun i s t e hm h0 h => ?_⟩
  obtain ⟨hsel, hmem⟩ := exec_device h
  obtain ⟨ksel, kmem⟩ := commandBody_notAsserted i (s := latch i s) hm (by simp [h0])
  exact SameDevice.of_eq (hsel.trans ksel) (hmem.trans kmem)

end Sys2Proof.Proofs
end

section
/-! SUPPORT. The statements of 20_memory.md, last part: the host-side assemblies of bytes. -/

namespace Sys2Proof.Proofs

open Sys2Proof.Machine

/-- A 16-bit word from its two bytes, as a number. -/
theorem toNat_append_bytes (h l : Byte) : (h ++ l : BitVec 16).toNat = 256 * h.toNat + l.toNat := by
  rw [BitVec.toNat_append, ← Nat.shiftLeft_add_eq_or_of_lt l.isLt, Nat.shiftLeft_eq]
  omega

/-- A 16-bit word from its two bytes, read as two's complement: bit 7 of the high byte is the sign. -/
theorem toInt_append_bytes (h l : Byte) :
    (h ++ l : BitVec 16).toInt =
      if h.toNat < 128 then (256 * h.toNat + l.toNat : Int) else 256 * h.toNat + l.toNat - 65536 := by
  have hl := l.isLt
  rw [BitVec.toInt_eq_toNat_cond, toNat_append_bytes]
  split_ifs <;> push_cast <;> omega

/-- Settles O54: each assembly is a 16-bit word made of two bytes. -/
theorem byteAssembliesFollowTheirOrder : Obligations.ByteAssembliesFollowTheirOrder :=
  ⟨fun lo hi => ⟨toInt_append_bytes lo hi, toInt_append_bytes hi lo⟩, fun _ _ _ _ _ _ _ => rfl, toNat_append_bytes⟩

end Sys2Proof.Proofs
end

section
/-! SUPPORT. The statements of 30_encoding.md, first part: the decoder. Packing and unpacking the fields are inverses;
the legal fields are those of a command (`wellFormed_iff`), and the decoder reads that command off them
(`decode_eq_cmd_iff`). The rest follows: the encoder's inverse, the opcode map, the number of legal words. -/

namespace Sys2Proof.Proofs

open Sys2Proof.Machine

/-! ### The fields of a word -/

/-- The slices of a word are adjacent and cover it (R90). -/
theorem packFields_unpackFields (w : CmdWord) : packFields (unpackFields w) = w := by
  unfold packFields unpackFields
  simp only [BitVec.extractLsb'_append_extractLsb'_eq_extractLsb', BitVec.extractLsb'_eq_self]

/-- Each slice of a concatenation is the part that stands at its place (R90). -/
theorem unpackFields_packFields (f : CmdFields) : unpackFields (packFields f) = f := by
  obtain ⟨op, z1, bank, z0, addr, data⟩ := f
  simp (disch := omega) only [unpackFields, packFields, BitVec.extractLsb'_append_eq_of_le,
    BitVec.extractLsb'_append_eq_right, BitVec.extractLsb'_eq_self, Nat.reduceSub]

/-! ### The fields of a legal word -/

theorem op_cases (op : BitVec 3) :
    op = 0 ∨ op = 1 ∨ op = 2 ∨ op = 3 ∨ op = 4 ∨ op = 5 ∨ op = 6 ∨ op = 7 := by
  revert op; decide

theorem fields_wellFormed (i : Instr) : i.fields.wellFormed = true := by cases i <;> rfl

/-- The checks of R106, one by one. -/
theorem wellFormed_iff_checks (f : CmdFields) : f.wellFormed = true ↔ f.op ≠ 0 ∧ f.z1 = 0 ∧ f.z0 = 0 ∧
    (f.usesBank || f.bank == 0) = true ∧ (f.usesAddr || f.addr == 0) = true ∧ (f.usesData || f.data == 0) = true := by
  simp only [CmdFields.wellFormed, CmdFields.opAllowed, CmdFields.z1Zero, CmdFields.z0Zero, CmdFields.unusedZero,
    Bool.and_eq_true, bne_iff_ne, beq_iff_eq, and_assoc]

/-- The legal fields are those of a command: the opcode says which, and the fields it does not use are zero. -/
theorem wellFormed_iff (f : CmdFields) : f.wellFormed = true ↔ ∃ i : Instr, i.fields = f := by
  refine ⟨fun h => ?_, fun ⟨i, hi⟩ => hi ▸ fields_wellFormed i⟩
  obtain ⟨op, z1, bank, z0, addr, data⟩ := f
  obtain ⟨hop, rfl, rfl, hbank, haddr, hdata⟩ := (wellFormed_iff_checks _).1 h
  obtain rfl | rfl | rfl | rfl | rfl | rfl | rfl | rfl := op_cases op
  · exact absurd rfl hop
  · obtain rfl : addr = 0 := eq_of_beq haddr
    obtain rfl : data = 0 := eq_of_beq hdata
    exact ⟨.selb bank, rfl⟩
  · obtain rfl : bank = 0 := eq_of_beq hbank
    obtain rfl : data = 0 := eq_of_beq hdata
    exact ⟨.rdr addr, rfl⟩
  · obtain rfl : bank = 0 := eq_of_beq hbank
    exact ⟨.wrr addr data, rfl⟩
  · obtain rfl : data = 0 := eq_of_beq hdata
    exact ⟨.rdb bank addr, rfl⟩
  · exact ⟨.wrb bank addr data, rfl⟩
  · obtain rfl : bank = 0 := eq_of_beq hbank
    obtain rfl : data = 0 := eq_of_beq hdata
    exact ⟨.rdv addr, rfl⟩
  · obtain rfl : data = 0 := eq_of_beq hdata
    exact ⟨.rdvb bank addr, rfl⟩

/-- A check of the decoder that answers a command has passed. -/
theorem check_eq_cmd {c : Prop} [Decidable c] {r : IllegalReason} {d : Decoded} {i : Instr} :
    (if c then d else .illegal r) = .cmd i ↔ c ∧ d = .cmd i := by
  split_ifs with h <;> simp [h]

/-- The decoder answers a command exactly for the fields of that command (R104, R112). -/
theorem decodeFields_eq_cmd_iff {f : CmdFields} {i : Instr} : decodeFields f = .cmd i ↔ i.fields = f := by
  refine ⟨fun h => ?_, fun h => h ▸ by cases i <;> rfl⟩
  obtain ⟨op, z1, bank, z0, addr, data⟩ := f
  obtain rfl | rfl | rfl | rfl | rfl | rfl | rfl | rfl := op_cases op
  · simp [decodeFields, check_eq_cmd] at h
  · obtain ⟨rfl, rfl, rfl, rfl, rfl⟩ : z1 = 0 ∧ z0 = 0 ∧ addr = 0 ∧ data = 0 ∧ .selb bank = i := by
      simpa [decodeFields, check_eq_cmd] using h
    rfl
  · obtain ⟨rfl, rfl, rfl, rfl, rfl⟩ : z1 = 0 ∧ z0 = 0 ∧ bank = 0 ∧ data = 0 ∧ .rdr addr = i := by
      simpa [decodeFields, check_eq_cmd] using h
    rfl
  · obtain ⟨rfl, rfl, rfl, rfl⟩ : z1 = 0 ∧ z0 = 0 ∧ bank = 0 ∧ .wrr addr data = i := by
      simpa [decodeFields, check_eq_cmd] using h
    rfl
  · obtain ⟨rfl, rfl, rfl, rfl⟩ : z1 = 0 ∧ z0 = 0 ∧ data = 0 ∧ .rdb bank addr = i := by
      simpa [decodeFields, check_eq_cmd] using h
    rfl
  · obtain ⟨rfl, rfl, rfl⟩ : z1 = 0 ∧ z0 = 0 ∧ .wrb bank addr data = i := by
      simpa [decodeFields, check_eq_cmd] using h
    rfl
  · obtain ⟨rfl, rfl, rfl, rfl, rfl⟩ : z1 = 0 ∧ z0 = 0 ∧ bank = 0 ∧ data = 0 ∧ .rdv addr = i := by
      simpa [decodeFields, check_eq_cmd] using h
    rfl
  · obtain ⟨rfl, rfl, rfl, rfl⟩ : z1 = 0 ∧ z0 = 0 ∧ data = 0 ∧ .rdvb bank addr = i := by
      simpa [decodeFields, check_eq_cmd] using h
    rfl

/-- The words that decode to a command are its own encoding (R104, R105). -/
theorem decode_eq_cmd_iff {w : CmdWord} {i : Instr} : decode w = .cmd i ↔ encode i = w := by
  refine decodeFields_eq_cmd_iff.trans ⟨fun h => ?_, fun h => ?_⟩
  · rw [encode, h, packFields_unpackFields]
  · rw [← h, encode, unpackFields_packFields]

/-- Settles O1: both directions are `decode_eq_cmd_iff`. -/
theorem decodeEncodeAreInverses : Obligations.DecodeEncodeAreInverses :=
  ⟨fun i => ⟨fields_wellFormed i, decode_eq_cmd_iff.2 rfl⟩, fun _ _ => decode_eq_cmd_iff.1⟩

/-! ### The opcode map -/

/-- A word is illegal exactly when its fields are not well-formed (R106). -/
theorem decode_illegal_iff (w : CmdWord) :
    (∃ why, decode w = .illegal why) ↔ ¬ (unpackFields w).wellFormed = true := by
  simp only [wellFormed_iff, ← decodeFields_eq_cmd_iff, decode]
  cases decodeFields (unpackFields w) <;> simp

/-- The bits that two words have in common, field by field. -/
def maskFields (f m : CmdFields) : CmdFields :=
  ⟨f.op &&& m.op, f.z1 &&& m.z1, f.bank &&& m.bank, f.z0 &&& m.z0, f.addr &&& m.addr, f.data &&& m.data⟩

theorem unpackFields_and (w m : CmdWord) :
    unpackFields (w &&& m) = maskFields (unpackFields w) (unpackFields m) := by
  simp only [unpackFields, maskFields, BitVec.extractLsb'_and]

/-- The mask of one field: nothing of a field the command uses, every bit of another. -/
def fieldMask (n : Nat) (used : Bool) : BitVec n := if used then 0 else BitVec.allOnes n

theorem and_fieldMask_eq_zero {n : Nat} (x : BitVec n) (used : Bool) :
    x &&& fieldMask n used = 0 ↔ (used || x == 0) = true := by
  cases used <;> simp [fieldMask]

/-- The mask that R104 to R106 ask for: the opcode, the reserved bits and the fields the opcode does not use. -/
def checkedMask (f : CmdFields) : CmdFields where
  op := BitVec.allOnes 3
  z1 := BitVec.allOnes 3
  bank := fieldMask 2 f.usesBank
  z0 := BitVec.allOnes 1
  addr := fieldMask 7 f.usesAddr
  data := fieldMask 8 f.usesData

/-- The opcode of a row of the map. -/
def rowOp (r : OpcodeRow) : BitVec 3 := (unpackFields r.bits).op

/-- Every row of the map has a legal opcode; its match is that opcode and zero elsewhere, its mask the one of R106. -/
theorem opcodeRows_fields : ∀ r ∈ opcodeRows, rowOp r ≠ 0 ∧ unpackFields r.bits = ⟨rowOp r, 0, 0, 0, 0, 0⟩ ∧
    unpackFields r.mask = checkedMask (unpackFields r.bits) := by decide

/-- Fields meet the match and mask of an opcode exactly when they are well-formed and carry it. -/
theorem maskFields_checkedMask {f : CmdFields} {op : BitVec 3} (hop : op ≠ 0) :
    maskFields f (checkedMask ⟨op, 0, 0, 0, 0, 0⟩) = ⟨op, 0, 0, 0, 0, 0⟩ ↔ f.wellFormed = true ∧ f.op = op := by
  obtain ⟨op', z1, bank, z0, addr, data⟩ := f
  simp only [maskFields, checkedMask, CmdFields.mk.injEq, BitVec.and_allOnes, and_fieldMask_eq_zero]
  constructor
  · rintro ⟨rfl, rfl, hbank, rfl, haddr, hdata⟩
    exact ⟨(wellFormed_iff_checks _).2 ⟨hop, rfl, rfl, hbank, haddr, hdata⟩, rfl⟩
  · rintro ⟨hwf, rfl⟩
    obtain ⟨-, rfl, rfl, hbank, haddr, hdata⟩ := (wellFormed_iff_checks _).1 hwf
    exact ⟨rfl, rfl, hbank, rfl, haddr, hdata⟩

/-- A word meets a row exactly when it is legal and carries the row's opcode (R105). -/
theorem hits_iff {r : OpcodeRow} (hr : r ∈ opcodeRows) (w : CmdWord) :
    r.hits w = true ↔ (unpackFields w).wellFormed = true ∧ (unpackFields w).op = rowOp r := by
  obtain ⟨h0, hb, hm⟩ := opcodeRows_fields r hr
  have hinj : Function.Injective unpackFields := Function.LeftInverse.injective packFields_unpackFields
  rw [OpcodeRow.hits, beq_iff_eq, ← hinj.eq_iff, unpackFields_and, hm, hb, maskFields_checkedMask h0]

/-- Every command has its row. -/
theorem exists_row (i : Instr) : ∃ r ∈ opcodeRows, r.mnemonic = i.mnemonic ∧ rowOp r = i.fields.op := by
  cases i <;> simp [opcodeRows, Instr.mnemonic, Instr.fields, rowOp, unpackFields]

/-- No two rows share a mnemonic or an opcode. -/
theorem opcodeRows_distinct : ∀ r ∈ opcodeRows, ∀ r' ∈ opcodeRows,
    (r.mnemonic = r'.mnemonic → r = r') ∧ (rowOp r = rowOp r' → r = r') := by decide

theorem mnemonic_eq_iff {r : OpcodeRow} (hr : r ∈ opcodeRows) (i : Instr) :
    i.mnemonic = r.mnemonic ↔ i.fields.op = rowOp r := by
  obtain ⟨r', hr', hmn, hop⟩ := exists_row i
  obtain ⟨same_mn, same_op⟩ := opcodeRows_distinct r' hr' r hr
  rw [← hmn, ← hop]
  exact ⟨fun h => congrArg rowOp (same_mn h), fun h => congrArg OpcodeRow.mnemonic (same_op h)⟩

/-- A word meets a row exactly when it decodes to a command of its mnemonic (R105). -/
theorem hits_iff_mnemonic {r : OpcodeRow} (hr : r ∈ opcodeRows) (w : CmdWord) :
    r.hits w = true ↔ ∃ i : Instr, decode w = .cmd i ∧ i.mnemonic = r.mnemonic := by
  simp only [hits_iff hr, wellFormed_iff, mnemonic_eq_iff hr, decode, decodeFields_eq_cmd_iff]
  constructor
  · rintro ⟨⟨i, hi⟩, hop⟩
    exact ⟨i, hi, hi ▸ hop⟩
  · rintro ⟨i, hi, hop⟩
    exact ⟨⟨i, hi⟩, hi ▸ hop⟩

/-- No word meets two rows (R105). -/
theorem opcodeRows_disjoint {r r' : OpcodeRow} (hr : r ∈ opcodeRows) (hr' : r' ∈ opcodeRows) {w : CmdWord}
    (h : r.hits w = true) (h' : r'.hits w = true) : r = r' := by
  obtain ⟨-, hop⟩ := (hits_iff hr w).1 h
  obtain ⟨-, hop'⟩ := (hits_iff hr' w).1 h'
  obtain ⟨-, same_op⟩ := opcodeRows_distinct r hr r' hr'
  exact same_op (hop.symm.trans hop')

/-- A word is legal exactly when it meets a row. -/
theorem wellFormed_iff_hits (w : CmdWord) :
    (unpackFields w).wellFormed = true ↔ ∃ r ∈ opcodeRows, r.hits w = true := by
  constructor
  · intro h
    obtain ⟨i, hi⟩ := (wellFormed_iff _).1 h
    obtain ⟨r, hr, -, hop⟩ := exists_row i
    exact ⟨r, hr, (hits_iff hr w).2 ⟨h, by rw [hop, hi]⟩⟩
  · rintro ⟨r, hr, h⟩
    exact ((hits_iff hr w).1 h).1

/-- The fields of an illegal word meet one of the conditions of R106. -/
theorem not_wellFormed_iff (f : CmdFields) :
    ¬ f.wellFormed = true ↔ f.op = 0 ∨ f.z1 ≠ 0 ∨ f.z0 ≠ 0 ∨ f.unusedZero = false := by
  simp only [CmdFields.wellFormed, CmdFields.opAllowed, CmdFields.z1Zero, CmdFields.z0Zero, Bool.and_eq_true,
    bne_iff_ne, beq_iff_eq, ← Bool.not_eq_true]
  tauto

/-- Settles O2: a row is met by the legal words of its opcode, and an opcode has one mnemonic. -/
theorem decoderFollowsOpcodeMap : Obligations.DecoderFollowsOpcodeMap := by
  refine ⟨fun w _ hr => hits_iff_mnemonic hr w, fun _ _ _ hr hr' => opcodeRows_disjoint hr hr',
    fun w => ?_, fun w => ?_⟩
  · rw [decode_illegal_iff, wellFormed_iff_hits]
    simp
  · rw [decode_illegal_iff, not_wellFormed_iff]

/-! ### How many words are legal -/

/-- A command is a choice of one of seven operand tuples (R110). -/
def instrEquiv : Instr ≃
    Bank ⊕ Addr ⊕ (Addr × Byte) ⊕ (Bank × Addr) ⊕ (Bank × Addr × Byte) ⊕ Addr ⊕ (Bank × Addr) where
  toFun
    | .selb b => .inl b
    | .rdr a => .inr (.inl a)
    | .wrr a v => .inr (.inr (.inl (a, v)))
    | .rdb b a => .inr (.inr (.inr (.inl (b, a))))
    | .wrb b a v => .inr (.inr (.inr (.inr (.inl (b, a, v)))))
    | .rdv a => .inr (.inr (.inr (.inr (.inr (.inl a)))))
    | .rdvb b a => .inr (.inr (.inr (.inr (.inr (.inr (b, a))))))
  invFun
    | .inl b => .selb b
    | .inr (.inl a) => .rdr a
    | .inr (.inr (.inl (a, v))) => .wrr a v
    | .inr (.inr (.inr (.inl (b, a)))) => .rdb b a
    | .inr (.inr (.inr (.inr (.inl (b, a, v))))) => .wrb b a v
    | .inr (.inr (.inr (.inr (.inr (.inl a))))) => .rdv a
    | .inr (.inr (.inr (.inr (.inr (.inr (b, a)))))) => .rdvb b a
  left_inv i := by cases i <;> rfl
  right_inv := by rintro (_ | _ | _ | _ | _ | _ | _) <;> rfl

theorem card_bitVec (n : Nat) : Nat.card (BitVec n) = 2 ^ n := by
  rw [Nat.card_congr BitVec.equivFin.toEquiv, Nat.card_fin]

theorem card_instr : Nat.card Instr = 165124 := by
  rw [Nat.card_congr instrEquiv]
  simp only [Nat.card_sum, Nat.card_prod, card_bitVec]
  norm_num

theorem encode_injective : Function.Injective encode := fun i j h => by
  have hi : decode (encode i) = .cmd i := decode_eq_cmd_iff.2 rfl
  rw [h, decode_eq_cmd_iff.2 rfl] at hi
  exact (Decoded.cmd.inj hi).symm

/-- Settles O3: the legal words are the encodings of the commands, each of its own. -/
theorem legalWordsNumber165124 : Obligations.LegalWordsNumber165124 := by
  unfold Obligations.LegalWordsNumber165124
  simp only [decode_eq_cmd_iff]
  exact (Nat.card_range_of_injective encode_injective).trans card_instr

/-! ### Sample words -/

/-- Settles O4: the legal ones are encodings written out; an illegal one fails at the first check it does not pass. -/
theorem sampleWordsDecode : Obligations.SampleWordsDecode := by
  refine ⟨decode_eq_cmd_iff.2 rfl, decode_eq_cmd_iff.2 rfl, decode_eq_cmd_iff.2 rfl, decode_eq_cmd_iff.2 rfl,
    decode_eq_cmd_iff.2 rfl, decode_eq_cmd_iff.2 rfl, decode_eq_cmd_iff.2 rfl, rfl, rfl, rfl, rfl, rfl, rfl⟩

end Sys2Proof.Proofs
end

section
/-! SUPPORT. The statements of 30_encoding.md, second part: the bytes of a frame, the responses, the frames. -/

namespace Sys2Proof.Proofs

open Sys2Proof.Machine Sys2Proof.Laws

/-! ### The address byte and the bank code -/

theorem writeAddrByte_toNat (a : Addr) : (writeAddrByte a).toNat = a.toNat :=
  BitVec.toNat_setWidth_of_le (by decide)

/-- The direction bit stands above the seven bits of the address (R100). -/
theorem readAddrByte_toNat (a : Addr) : (readAddrByte a).toNat = 128 + a.toNat := by
  have h := writeAddrByte_toNat a
  have key := Nat.two_pow_add_eq_or_of_lt a.isLt 1
  rw [readAddrByte, ← writeAddrByte, BitVec.toNat_or, h]
  exact key.symm

/-- Settles O5: the two numbers; the rest is in the laws of the address byte. -/
theorem addressByteCarriesDirectionAndAddress : Obligations.AddressByteCarriesDirectionAndAddress :=
  ⟨fun a => ⟨rfl, readAddrByte_toNat a, rfl, writeAddrByte_toNat a, isReadFrame_readAddrByte a,
    isReadFrame_writeAddrByte a, frameAddr_readAddrByte a, frameAddr_writeAddrByte a⟩,
    fun a _ n x => ⟨loadRead_b0 a n x, rfl⟩⟩

/-- The bank code is the bank number times 2 to the shift, which fits the byte (R101). -/
theorem bankCode_toNat (p : Params) (b : Bank) : (bankCode p b).toNat = b.toNat * 2 ^ p.bankSelShift.val := by
  have hb := b.isLt
  have hpow : 2 ^ p.bankSelShift.val ≤ 2 ^ 6 := Nat.pow_le_pow_right (by decide) (by omega)
  have hfit : b.toNat * 2 ^ p.bankSelShift.val < 2 ^ 8 := by
    calc b.toNat * 2 ^ p.bankSelShift.val ≤ 3 * 2 ^ 6 := Nat.mul_le_mul (by omega) hpow
      _ < 2 ^ 8 := by decide
  rw [bankCode, BitVec.toNat_shiftLeft, BitVec.toNat_setWidth, Nat.shiftLeft_eq,
    Nat.mod_eq_of_lt (a := b.toNat) (by omega), Nat.mod_eq_of_lt hfit]

theorem bankCode_injective (p : Params) : Function.Injective (bankCode p) :=
  Function.LeftInverse.injective (bankField_bankCode p)

/-- Settles O6: no bit of the bank is lost, so that the device's field gives it back and the codes are distinct. -/
theorem bankCodeIsRecoverable : Obligations.BankCodeIsRecoverable := by
  refine ⟨fun p b => ⟨rfl, bankCode_toNat p b, bankField_bankCode p b, fun b' h => bankCode_injective p h⟩,
    fun p h => ?_, fun p h => ?_⟩ <;>
  · unfold bankCode
    rw [h]
    exact ⟨rfl, rfl, rfl, rfl⟩

/-! ### The response of a command -/

/-- A read that is OK has as many data bytes as its frame has after the address byte (R59, R96). -/
theorem memRead_ok_length {leg : Leg} {a : Addr} {n : FrameLen} {s t : State} {d : List Byte}
    (h : memRead leg a n s = .done (.ok d) t) : d.length = n.toNat - 1 := by
  obtain ⟨rfl, -, -⟩ := xact_ok_data h
  have hn : t.xn = n := (xactKeeps_of_done h).xn
  rw [hn]
  cases n <;> rfl

/-- A write that is OK has no data (R60, R96). -/
theorem memWrite_ok_nil {leg : Leg} {a : Addr} {v : Byte} {s t : State} {d : List Byte}
    (h : memWrite leg a v s = .done (.ok d) t) : d = [] := by
  obtain ⟨r, u, -, hr⟩ := bind_eq_done h
  cases r <;> cases hr
  rfl

theorem commandAccess_ok_length {i : Instr} {s t : State} {d : List Byte} (h : commandAccess i s = .done (.ok d) t) :
    d.length = okLen i := by
  cases i with
  | selb b => cases h; rfl
  | rdr a | rdb b a | rdv a | rdvb b a => exact memRead_ok_length h
  | wrr a v | wrb b a v => rw [memWrite_ok_nil h]; rfl

/-- A command that is OK has the data of its access: a select that fails is not OK. -/
theorem commandBody_ok_length {i : Instr} {s t : State} {d : List Byte} (h : commandBody i s = .done (.ok d) t) :
    d.length = okLen i := by
  cases hb : commandBank i with
  | none =>
    rw [commandBody_of_raw hb] at h
    exact commandAccess_ok_length h
  | some b =>
    rw [commandBody_of_bank hb] at h
    obtain ⟨r, u, -, ha⟩ := bind_eq_done h
    cases r with
    | ok => exact commandAccess_ok_length ha
    | comm | pin => cases ha

/-- Settles O40: a command whose body returns ends with the response of the result; one whose body waits sends none. -/
theorem oneResponsePerCommand : Obligations.OneResponsePerCommand := by
  intro i s t h
  have hrsps := ((latch_body i s).trans (commandBody_body i (latch i s))).rsps
  obtain ⟨r, u, e, rfl⟩ | e := exec_cases h <;> rw [e] at hrsps
  · refine .inl ⟨rfl, resultResponse r, congrArg (· ++ [resultResponse r]) hrsps, ?_⟩
    cases r with
    | ok d => exact ⟨nofun, fun _ => commandBody_ok_length e, fun hne => absurd rfl hne⟩
    | comm c => exact ⟨nofun, nofun, fun _ => rfl⟩
    | pin p => exact ⟨nofun, nofun, fun _ => rfl⟩
  · exact .inr ⟨commandBody_waiting_ne_idle e, hrsps⟩

/-! ### The frames of a command -/

/-- From `s` to `t` only tokens of the shapes of R98 were added to the trace. -/
def AddsShaped (s t : State) : Prop := ∃ es, t.trace = s.trace ++ es ∧ ∀ e ∈ es, e.shapeOk = true

theorem AddsShaped.of_trace_eq {s t : State} (h : t.trace = s.trace) : AddsShaped s t := ⟨[], by simp [h], nofun⟩

theorem AddsShaped.trans {s t u : State} (h : AddsShaped s t) (k : AddsShaped t u) : AddsShaped s u := by
  obtain ⟨es, he, hes⟩ := h
  obtain ⟨fs, hf, hfs⟩ := k
  exact ⟨es ++ fs, by rw [hf, he, List.append_assoc], fun e hmem => (List.mem_append.1 hmem).elim (hes e) (hfs e)⟩

/-- A chip-select token carries no frame. -/
theorem shapeOk_of_cs {e : Event} (h : e.isLow = true ∨ e.isHigh = true) : e.shapeOk = true := by
  cases e with
  | low | lowErr | high | highErr => rfl
  | write | writeErr | transfer | transferErr => simp [Event.isLow, Event.isHigh] at h

/-- A transaction over a frame of one of the shapes adds only such tokens. -/
theorem xact_addsShaped {leg : Leg} {d : Bool} {s : State} (hd : ∀ e, DataToken d s e → e.shapeOk = true) :
    AddsShaped s (ranState (xact leg d s)) := by
  obtain ⟨es, he, htok, -⟩ := xact_tokens leg d s
  refine ⟨es, he, fun e hmem => ?_⟩
  obtain hlow | hhigh | hdata := htok e hmem
  · exact shapeOk_of_cs (.inl hlow)
  · exact shapeOk_of_cs (.inr hhigh)
  · exact hd e hdata

theorem memWrite_addsShaped (leg : Leg) (a : Addr) (v : Byte) (s : State) :
    AddsShaped s (ranState (memWrite leg a v s)) := by
  rw [ranState_memWrite]
  exact xact_addsShaped (s := s.setFrame (loadWrite a v s.xb) .two) fun _ => dataToken_write (a := a) rfl

/-- The frame loaded for a read is the direction bit, the address and fill (R98, R102). -/
theorem readSent_loadRead (a : Addr) (n : FrameLen) (x : XBuf) : Event.readSent ((loadRead a n x).frame n) = true := by
  cases n <;> simp [loadRead, XBuf.frame, Event.readSent]

theorem memRead_addsShaped (leg : Leg) (a : Addr) (n : FrameLen) (s : State) :
    AddsShaped s (ranState (memRead leg a n s)) :=
  xact_addsShaped (s := s.setFrame (loadRead a n s.xb) n) fun _ => dataToken_read (readSent_loadRead a n s.xb)

/-- Settles O41: every token of a command is one of a memory primitive; its end adds none. -/
theorem framesHaveOneOfThreeShapes : Obligations.FramesHaveOneOfThreeShapes := by
  intro i s t h
  have key : AddsShaped (latch i s) (ranState (commandBody i (latch i s))) :=
    commandBody_keeps (P := AddsShaped) (fun _ => .of_trace_eq rfl) AddsShaped.trans (fun _ _ => .of_trace_eq rfl)
      memWrite_addsShaped memRead_addsShaped i _
  obtain ⟨r, u, e, rfl⟩ | e := exec_cases h <;> rw [e] at key <;> exact key

end Sys2Proof.Proofs
end

section
/-! SUPPORT. The statements of 40_raw_access.md, first part: the raw commands when nothing fails. What a read and what a
write then does is said once (`exec_read_ok`, `exec_wrr_ok`), from `memRead_ok` and `memWrite_ok`. -/

namespace Sys2Proof.Proofs

open Sys2Proof.Machine Sys2Proof.Laws

/-! ### A command that is OK -/

/-- From `s` a command has ended in `t` with OK and the data `d` after `m` invocations, whose tokens are `tokens`. -/
structure EndedOk (m : Nat) (d : List Byte) (tokens : List Event) (s t : State) : Prop where
  ended : Ended s t ⟨.ok, d⟩
  trace : t.trace = s.trace ++ tokens
  cs : t.cs = .high
  script : t.script = s.script.drop m
  answers : ∀ k, t.answerAt k = s.answerAt (k + m)

/-- A command whose body is one transaction that did not fail. -/
theorem exec_oneTransaction {i : Instr} {s u : State} {d : List Byte} {tokens : List Event}
    (hbody : commandBody i (latch i s) = .done (.ok d) u) (hone : OneTransaction (latch i s) u tokens) :
    exec i s = .next (endCommand ⟨.ok, d⟩ u) ∧ EndedOk 3 d tokens s (endCommand ⟨.ok, d⟩ u) := by
  refine ⟨by rw [exec_eq, runCommand_done hbody]; rfl, ?_⟩
  exact ⟨ended_endCommand _ ((latch_body i s).trans hone.toBodyKeeps), hone.trace, hone.cs, hone.script, hone.answers⟩

/-! ### Raw reads -/

/-- The bytes of the device that a read of its current bank returns (R65, R71). -/
def deviceData (s : State) (a : Addr) : FrameLen → List Byte
  | .two => [s.devByte s.dBank a]
  | .seven =>
    [s.devByte s.dBank a, s.devByte s.dBank (a + 1), s.devByte s.dBank (a + 2), s.devByte s.dBank (a + 3),
      s.devByte s.dBank (a + 4), s.devByte s.dBank (a + 5)]

theorem exchangedResponse_deviceData {leg : Leg} {a : Addr} {n : FrameLen} {s : State} (hm : s.transport = .mock)
    (hn : n = .seven → a.toNat + 5 ≤ 0x7F) :
    (exchangedResponse leg (s.setFrame (loadRead a n s.xb) n)).data n = deviceData s a n := by
  have h := exchangedResponse_mock (leg := leg) hm hn
  cases n <;> exact h

/-- A command that only reads, when nothing fails: one read frame, the data of its response, which on the mock are the
device's; the device and `cur_bank` are as before. -/
theorem exec_read_ok {i : Instr} {a : Addr} {n : FrameLen} (hi : commandBody i = memRead .acc a n) {s : State}
    (h3 : s.AllOk 3) (hr : ReadServed a n s) : ∃ (t : State) (resp : XBuf), exec i s = .next t ∧
      EndedOk 3 (resp.data n) [.low, .transfer ((loadRead a n s.xb).frame n) (resp.frame n), .high] s t ∧
      t.curBank = s.curBank ∧ (s.transport = .mock → SameDevice s t ∧ resp.data n = deviceData s a n) := by
  obtain ⟨u, resp, hu, hone, hcur, hdev, hresp⟩ := memRead_ok .acc a n (s := latch i s) h3 hr
  obtain ⟨hexec, hend⟩ := exec_oneTransaction (by rw [hi]; exact hu) hone
  refine ⟨_, resp, hexec, hend, hcur, fun hm => ⟨?_, ?_⟩⟩
  · obtain ⟨hsel, hmem⟩ := hdev hm
    exact SameDevice.of_eq hsel hmem
  · rw [hresp]
    exact exchangedResponse_deviceData (s := latch i s) hm (hr hm)

/-- Settles O18: a read of two bytes. -/
theorem rdrReturnsTheSecondResponseByte : Obligations.RdrReturnsTheSecondResponseByte := by
  intro a s h3
  obtain ⟨t, resp, hexec, hend, hcur, hdev⟩ := exec_read_ok (i := .rdr a) rfl h3 (.two a s)
  refine ⟨t, resp.b0, resp.b1, hexec, hend.ended, hend.trace, fun hm => ?_, hcur, hend.cs, hend.script⟩
  obtain ⟨hsame, hdata⟩ := hdev hm
  exact ⟨(List.cons.inj hdata).1, hsame⟩

/-- Where the environment gives `RDV` a meaning, it gives its frame one (R71). -/
theorem readServed_of_served {a : Addr} {s : State} (h : s.Served (.rdv a)) : ReadServed a .seven s :=
  fun hm _ => Nat.le_of_not_lt (of_decide_eq_false (h hm))

/-- Settles O20: a read of seven bytes. -/
theorem rdvReturnsSixConsecutiveBytes : Obligations.RdvReturnsSixConsecutiveBytes := by
  intro a s hs h3
  obtain ⟨t, resp, hexec, hend, hcur, hdev⟩ := exec_read_ok (i := .rdv a) rfl h3 (readServed_of_served hs)
  refine ⟨t, resp.b0, resp.b1, resp.b2, resp.b3, resp.b4, resp.b5, resp.b6, hexec, hend.ended, hend.trace,
    fun hm => ?_, hcur, hend.cs, hend.script⟩
  obtain ⟨hsame, hdata⟩ := hdev hm
  exact ⟨hsame, by simpa [XBuf.data, deviceData] using hdata⟩

/-! ### The raw write -/

/-- `WRR` when nothing fails: one write frame, on the mock the byte stored at its target; `cur_bank` is as before. -/
theorem exec_wrr_ok (a : Addr) (v : Byte) {s : State} (h3 : s.AllOk 3) : ∃ t : State, exec (.wrr a v) s = .next t ∧
    EndedOk 3 [] [.low, .write [writeAddrByte a, v], .high] s t ∧ t.curBank = s.curBank ∧
    (s.transport = .mock → t.dSel = (s.devStore a v).dSel ∧ t.mem = (s.devStore a v).mem) := by
  obtain ⟨u, hu, hone, hcur, hdev⟩ := memWrite_ok .acc a v (s := latch (.wrr a v) s) h3
  obtain ⟨hexec, hend⟩ := exec_oneTransaction (i := .wrr a v) hu hone
  obtain ⟨hsel, hmem⟩ := devStore_congr (s := s) (t := latch (.wrr a v) s) rfl rfl rfl a v
  exact ⟨_, hexec, hend, hcur, fun hm => ⟨(hdev hm).1.trans hsel, (hdev hm).2.trans hmem⟩⟩

/-- Settles O19: the byte stored is the one at its target, and a store leaves every other byte. -/
theorem wrrWritesOneByte : Obligations.WrrWritesOneByte := by
  intro a v s h3
  obtain ⟨t, hexec, hend, hcur, hdev⟩ := exec_wrr_ok a v h3
  refine ⟨t, hexec, hend.ended, hend.trace, fun hm => ?_, hcur, hend.cs, hend.script⟩
  obtain ⟨hsel, hmem⟩ := hdev hm
  refine ⟨?_, StoredAtMost.but (.inr ⟨v, hsel, hmem⟩)⟩
  rw [devByte_congr hsel hmem]
  exact devStore_same a v s

/-! ### The round trip -/

/-- A byte stored is the one the device then reads at its address: the store either leaves the device's bank, or is to
0x7F, which every bank shares (R35, R36). -/
theorem devByte_dBank_devStore (a : Addr) (v : Byte) (s : State) :
    (s.devStore a v).devByte (s.devStore a v).dBank a = v := by
  by_cases h : a = bankSelAddr
  · subst h
    rw [devByte_sel, devStore_sel]
  · have hbank : (s.devStore a v).dBank = s.dBank := dBank_congr (by rw [devStore_reg h]) (by simp)
    rw [hbank]
    exact devStore_same a v s

/-- Settles O48: `WRR` leaves the mock as after the store, and `RDR` returns the byte the mock then reads. -/
theorem writeThenReadReturnsTheValue : Obligations.WriteThenReadReturnsTheValue := by
  intro a v s hm h6
  obtain ⟨t, hwrite, hend, -, hdev⟩ := exec_wrr_ok a v (AllOk.mono h6 (by omega))
  obtain ⟨hsel, hmem⟩ := hdev hm
  have h3 : t.AllOk 3 := AllOk.shift (m := 3) h6 hend.answers
  have hmock : t.transport = .mock := hend.ended.keeps.transport.trans hm
  obtain ⟨u, -, y, hread, hended, -, hbyte, -⟩ := rdrReturnsTheSecondResponseByte a t h3
  have hy : y = v := by
    rw [(hbyte hmock).1, devByte_congr hsel hmem, dBank_congr hsel (by simp [hend.ended.keeps.params])]
    exact devByte_dBank_devStore a v s
  refine ⟨t, u, hwrite, hread, ?_⟩
  rw [hended.rsps, hend.ended.rsps, hy, List.append_assoc]
  rfl

end Sys2Proof.Proofs
end

section
/-! SUPPORT. The statements of 40_raw_access.md, last part: two runs of a raw command side by side, from states that
differ in `cur_bank` and SKIP_REDUNDANT. -/

namespace Sys2Proof.Proofs

open Sys2Proof.Machine Sys2Proof.Laws

/-- `s` with another shadow and another skip policy. -/
def withPolicy (b : Bank) (k : Bool) (s : State) : State :=
  { s with curBank := b, params := { s.params with skipRedundant := k } }

/-- `t` is `s` but for the shadow and the skip policy, which are `b` and `k`. -/
def SameButPolicy (b : Bank) (k : Bool) (s t : State) : Prop := t = withPolicy b k s

section
variable (b : Bank) (k : Bool)

theorem withPolicy_devPut (d : Bank) (a : Addr) (v : Byte) (s : State) :
    (withPolicy b k s).devPut d a v = withPolicy b k (s.devPut d a v) := by
  by_cases h : a = bankSelAddr
  · subst h; rfl
  · rw [devPut_reg h, devPut_reg h]; rfl

theorem withPolicy_devDrift (s : State) : (withPolicy b k s).devDrift = withPolicy b k s.devDrift := by
  have key : ∀ (l : List DevPut) (s : State),
      l.foldl (fun t p => t.devPut p.bank p.addr p.byte) (withPolicy b k s) =
        withPolicy b k (l.foldl (fun t p => t.devPut p.bank p.addr p.byte) s) := by
    intro l
    induction l with
    | nil => exact fun _ => rfl
    | cons p l ih => exact fun s => by rw [List.foldl_cons, withPolicy_devPut, ih]; rfl
  cases h : s.transport with
  | mock => rw [devDrift_mock h, devDrift_mock (show (withPolicy b k s).transport = .mock from h)]
  | free =>
    unfold State.devDrift
    rw [h, show (withPolicy b k s).transport = .free from h]
    exact key _ s

theorem withPolicy_spent (s : State) : (withPolicy b k s).spent = withPolicy b k s.spent := by
  unfold State.spent
  rw [withPolicy_devDrift]
  rfl

/-- The bank the device applies is its own, not the shadow (R35). -/
theorem withPolicy_devWriteOk (x v : Byte) (s : State) :
    (withPolicy b k s).devWriteOk x v = withPolicy b k (s.devWriteOk x v) := by
  unfold State.devWriteOk
  rw [show (withPolicy b k s).transport = s.transport from rfl]
  cases s.transport with
  | free => rfl
  | mock =>
    cases isReadFrame x with
    | true => rfl
    | false => exact withPolicy_devPut b k s.dBank (frameAddr x) v s

/-- No primitive looks at the shadow or the skip policy. -/
theorem simulates_sameButPolicy : Simulates (SameButPolicy b k) where
  answer := by rintro s _ rfl; rfl
  transferAnswer := by rintro s _ rfl; rfl
  tick := by rintro s _ rfl; rfl
  releases := by rintro s _ rfl; rfl
  doubleFault := by rintro s _ rfl; rfl
  first := by rintro s _ rfl; exact ⟨rfl, rfl⟩
  frame := by rintro s _ rfl; rfl
  data := by rintro s _ rfl; rfl
  response := by rintro s _ rfl; rfl
  setCs l h := congrArg (State.setCs l) h
  log e h := congrArg (State.log e) h
  setPh p h := congrArg (State.setPh p) h
  setPend q h := congrArg (State.setPend q) h
  setXb x h := congrArg (State.setXb x) h
  spent := by rintro s _ rfl; exact withPolicy_spent b k s
  store {s _} x v := by rintro rfl; exact withPolicy_devWriteOk b k x v s
  take {s _} x v := by rintro rfl; exact congrArg (State.setXb _) (withPolicy_devWriteOk b k x v s)

end

theorem commandAccess_withPolicy (i : Instr) (b : Bank) (k : Bool) (s : State) :
    RanRel (SameButPolicy b k) (commandAccess i s) (commandAccess i (withPolicy b k s)) := by
  have hR := simulates_sameButPolicy b k
  cases i with
  | selb b' => exact ⟨rfl, rfl⟩
  | rdr a | rdb b' a => exact hR.memRead .acc a .two rfl
  | wrr a v | wrb b' a v => exact hR.memWrite .acc a v rfl
  | rdv a | rdvb b' a => exact hR.memRead .acc a .seven rfl

/-- Settles O44: a raw command is its access, and the relation `SameButPolicy` holds between the two runs all along. -/
theorem rawCommandsIgnoreShadowAndPolicy : Obligations.RawCommandsIgnoreShadowAndPolicy := by
  intro i b k s t hi h
  rw [exec_eq] at h
  injection h with h
  subst h
  have hrel := commandAccess_withPolicy i b k (latch i s)
  rw [← commandBody_of_raw hi, ← commandBody_of_raw hi] at hrel
  have key := finish_rel hrel fun r _ _ h => congrArg (endCommand r) h
  rw [exec_eq]
  exact congrArg Host.Outcome.next key

end Sys2Proof.Proofs
end

section
/-! SUPPORT. The statements of 41_bank_select.md. A select that fails is all its command does, and its transaction names
the failure and the tokens (`commandBody_of_failedSelect`, `selectXact_tokens`, `xact_failure_token`); one that is OK, or
skipped, leaves the access (`sel_ok`, `sel_skips`). The one row of the transition table that writes `cur_bank` is the end
of the select (`seqStep_curBank`). -/

namespace Sys2Proof.Proofs

open Sys2Proof.Machine Sys2Proof.Laws

/-! ### SELB when nothing fails -/

/-- A device whose bank-select byte is the code of `b` applies `b` (R35, R101). -/
theorem dBank_of_bankCode {s : State} {b : Bank} (h : s.dSel = bankCode s.params b) : s.dBank = b := by
  unfold State.dBank
  rw [h, bankField_bankCode]

/-- `SELB` that is not skipped, when nothing fails (R140): one bank-select frame, then the record. -/
theorem exec_selb_ok (b : Bank) {s : State} (hs : s.skips b = false) (h3 : s.AllOk 3) :
    ∃ t : State, exec (.selb b) s = .next t ∧ EndedOk 3 [] (selectTokens s.params b) s t ∧ t.curBank = b ∧
      (s.transport = .mock → t.dSel = bankCode s.params b ∧ t.mem = s.mem) := by
  obtain ⟨u, hu, hone, hcur, hdev⟩ := sel_ok b (s := latch (.selb b) s) hs h3
  obtain ⟨hexec, hend⟩ := exec_oneTransaction (i := .selb b) hu hone
  exact ⟨_, hexec, hend, hcur, hdev⟩

/-- `SELB` that is skipped returns OK at once (R141). -/
theorem exec_selb_skipped {b : Bank} {s : State} (hs : s.skips b = true) :
    exec (.selb b) s = .next (endCommand ⟨.ok, []⟩ (latch (.selb b) s)) := by
  have hbody : commandBody (.selb b) (latch (.selb b) s) = .done (.ok []) (latch (.selb b) s) := sel_skips hs
  rw [exec_eq, runCommand_done hbody]
  rfl

/-- Settles O22: the byte stored is the bank code, from which the device recovers the bank. -/
theorem selbWritesAndRecordsTheBank : Obligations.SelbWritesAndRecordsTheBank := by
  intro b s hs h3
  obtain ⟨t, hexec, hend, hcur, hdev⟩ := exec_selb_ok b hs h3
  refine ⟨t, hexec, hend.ended, hend.trace, hcur, fun hm => ?_, hend.cs, hend.script⟩
  obtain ⟨hsel, hmem⟩ := hdev hm
  have hbank : t.dBank = b := dBank_of_bankCode (by rw [hsel, hend.ended.keeps.params])
  exact ⟨hsel, hbank, hbank.trans hcur.symm, sameDeviceBut_of_mem hmem⟩

/-- Settles O23: the command is latched and ended, with nothing in between. -/
theorem skippedSelbDoesNothing : Obligations.SkippedSelbDoesNothing := by
  intro b s hs
  exact ⟨_, exec_selb_skipped hs, ended_endCommand _ (latch_body _ s), rfl, rfl, rfl, rfl, rfl, rfl⟩

/-! ### SELB, then a read of Bank0 -/

/-- From `s` on the mock `SELB b` has ended in `t` with OK, its select done or skipped. -/
structure SelbOnMock (b : Bank) (s t : State) : Prop where
  ended : Ended s t ⟨.ok, []⟩
  curBank : t.curBank = b
  mem : t.mem = s.mem
  /-- the device is in bank `b`, unless the select was skipped over a stale shadow (R43, R141) -/
  dBank : s.skips b = false ∨ s.Coherent → t.dBank = b

/-- `SELB` on the mock, when nothing fails, with the answers it leaves. -/
theorem exec_selb_mock (b : Bank) {s : State} {n : Nat} (hm : s.transport = .mock) (h : s.AllOk (3 + n)) :
    ∃ t : State, exec (.selb b) s = .next t ∧ SelbOnMock b s t ∧ t.AllOk n := by
  cases hs : s.skips b with
  | false =>
    obtain ⟨t, hexec, hend, hcur, hdev⟩ := exec_selb_ok b hs (AllOk.mono h (by omega))
    obtain ⟨hsel, hmem⟩ := hdev hm
    have hbank : t.dBank = b := dBank_of_bankCode (by rw [hsel, hend.ended.keeps.params])
    exact ⟨t, hexec, ⟨hend.ended, hcur, hmem, fun _ => hbank⟩, AllOk.shift h hend.answers⟩
  | true =>
    have hcur : s.curBank = b := eq_of_beq (Bool.and_eq_true_iff.mp hs).2
    refine ⟨_, exec_selb_skipped hs, ⟨ended_endCommand _ (latch_body _ s), hcur, rfl, fun hd => ?_⟩,
      AllOk.mono h (by omega)⟩
    obtain hd | hd := hd
    · rw [hs] at hd; cases hd
    · exact Eq.trans hd hcur

/-- Settles O49: the second select is not skipped, or skipped over a shadow that the first has left right. -/
theorem selectThenWhoAmIReadsBankZero : Obligations.SelectThenWhoAmIReadsBankZero := by
  intro b s hm h9 hpolicy
  obtain ⟨t, ht, hst, t6⟩ := exec_selb_mock b (n := 6) hm h9
  have tm := hst.ended.keeps.transport.trans hm
  obtain ⟨u, hu, htu, u3⟩ := exec_selb_mock 0 (n := 3) tm t6
  have um := htu.ended.keeps.transport.trans tm
  obtain ⟨v, -, y, hv, hend, -, hbyte, -⟩ := rdrReturnsTheSecondResponseByte 0x00 u u3
  have hsel : t.skips 0 = false ∨ t.Coherent := by
    obtain hk | hk | hk := hpolicy
    · exact .inl (by simp [State.skips, hst.ended.keeps.params, hk])
    · exact .inr ((hst.dBank (.inr hk)).trans hst.curBank.symm)
    · exact .inl (by simpa [State.skips, hst.curBank] using fun _ => hk)
  have hy : y = s.devByte 0 0x00 := by
    rw [(hbyte um).1, htu.dBank hsel]
    exact sameDeviceBut_of_mem (htu.mem.trans hst.mem) 0 0x00 (by decide)
  refine ⟨t, u, v, ht, hu, hv, ?_⟩
  rw [hend.rsps, htu.ended.rsps, hst.ended.rsps, hy]
  simp

/-! ### The tokens of a select -/

/-- A chip-select token, or the bank-select frame sent or attempted (R140). -/
def SelectToken (p : Params) (b : Bank) (e : Event) : Prop :=
  e.isLow = true ∨ e.isHigh = true ∨ e = .write [0x7F, bankCode p b] ∨ ∃ c, e = .writeErr [0x7F, bankCode p b] c

/-- The transaction of a select puts nothing else on the bus, and asserts chip-select once. -/
theorem selectXact_tokens (b : Bank) (s : State) : ∃ es, (ranState (selectXact b s)).trace = s.trace ++ es ∧
    (∀ e ∈ es, SelectToken s.params b e) ∧ ∀ r t, selectXact b s = .done r t → lowCount es = 1 := by
  obtain ⟨es, he, htok, hlow⟩ :=
    xact_tokens .sel false (s.setFrame (loadWrite bankSelAddr (bankCode s.params b) s.xb) .two)
  exact ⟨es, he, htok, fun r t h => (hlow r t h).1⟩

theorem sel_tokens (b : Bank) (s : State) : ∃ es, (ranState (sel b s)).trace = s.trace ++ es ∧
    ∀ e ∈ es, SelectToken s.params b e := by
  obtain ⟨es, he, htok, -⟩ := selectXact_tokens b s
  obtain ⟨-, e⟩ | ⟨-, ⟨t, hx, e⟩ | ⟨d, t, hx, e⟩ | ⟨c, t, hx, e⟩ | ⟨p, t, hx, e⟩⟩ := sel_cases b s
  · exact ⟨[], by simp [e], nofun⟩
  all_goals
    rw [hx] at he
    rw [e]
    exact ⟨es, he, htok⟩

theorem transferCount_of_selectTokens {p : Params} {b : Bank} {es : List Event} (h : ∀ e ∈ es, SelectToken p b e) :
    transferCount es = 0 := by
  refine List.countP_eq_zero.mpr fun e he => ?_
  obtain hlow | hhigh | rfl | ⟨c, rfl⟩ := h e he
  · cases e <;> simp_all [Event.isLow]
  · cases e <;> simp_all [Event.isHigh]
  · exact Bool.false_ne_true
  · exact Bool.false_ne_true

/-- The end of a command, and its waiting, leave `cur_bank` and the trace as its body does. -/
theorem exec_bankAndTrace {i : Instr} {s t : State} (h : exec i s = .next t) :
    t.curBank = (ranState (commandBody i (latch i s))).curBank ∧
      t.trace = (ranState (commandBody i (latch i s))).trace := by
  obtain ⟨r, u, e, rfl⟩ | e := exec_cases h <;> rw [e] <;> exact ⟨rfl, rfl⟩

/-- Settles O43: no token of a select is a transfer. -/
theorem selbNeverReads : Obligations.SelbNeverReads := by
  intro b s t h
  obtain ⟨es, he, htok⟩ := sel_tokens b (latch (.selb b) s)
  exact ⟨es, (exec_bankAndTrace h).2.trans he, transferCount_of_selectTokens htok⟩

/-! ### A select that fails -/

/-- A transaction returns if its invocations are answered and its frame has a meaning (R61). -/
theorem xact_returns {leg : Leg} {d : Bool} {s : State} (h : s.Answered 3) (hp : (d && s.pastMock) = false) :
    ∃ r t, xact leg d s = .done r t := by
  have h0 := h 0 (by omega)
  have h1 := h 1 (by omega)
  have h2 := h 2 (by omega)
  have hd := dataAnswerAt_of_served hp
  cases e : xact leg d s with
  | done r t => exact ⟨r, t, rfl⟩
  | waiting t =>
    have hrun := xact_run leg d s
    rw [e] at hrun
    cases hrun with
    | lowSilent k0 => exact absurd k0 h0
    | lowFailHighSilent _ _ _ k1 => exact absurd k1 h1
    | dataSilent _ k1 => exact absurd (hd.symm.trans k1) h1
    | okHighSilent _ _ k2 | failHighSilent _ _ _ k2 => exact absurd k2 h2

/-- The failure that a transaction reports is one of its tokens: COMM that of its frame, PIN one of chip-select (R63). -/
theorem xact_failure_token {leg : Leg} {d : Bool} {s t : State} {r : Result} (h : xact leg d s = .done r t) :
    ∃ es, t.trace = s.trace ++ es ∧ (∀ c, r = .comm c → failedToken d s c ∈ es) ∧
      (∀ p, r = .pin p → .lowErr p ∈ es ∨ .highErr p ∈ es) := by
  have hrun := xact_run leg d s
  rw [h] at hrun
  cases hrun with
  | lowFailHeld e => exact ⟨_, assertErr_trace leg e s, nofun, by simp⟩
  | lowFailHighOk e => exact ⟨[.lowErr ⟨e⟩, .high], by simp [highOk_trace, assertErrHigh_trace], nofun, by simp⟩
  | lowFailHighFail e e' =>
    exact ⟨[.lowErr ⟨e⟩, .highErr ⟨e'⟩], by simp [highFail_trace, assertErrHigh_trace], nofun, by simp +contextual⟩
  | allOk => exact ⟨[.low, sentToken leg d s, .high], by simp [highOk_trace, exchanged_trace], nofun, nofun⟩
  | okHighFail p =>
    exact ⟨[.low, sentToken leg d s, .highErr ⟨p⟩], by simp [highFail_trace, exchanged_trace], nofun, by simp⟩
  | failHighOk c =>
    exact ⟨[.low, failedToken d s ⟨c⟩, .high], by simp [highOk_trace, exchangeErr_trace], by simp, nofun⟩
  | failHighFail c p r _ _ _ hr =>
    refine ⟨[.low, failedToken d s ⟨c⟩, .highErr ⟨p⟩], by simp [highFail_trace, exchangeErr_trace], ?_⟩
    subst hr
    cases s.params.doubleFault <;> simp

/-- When one of the invocations of a select fails, its transaction returns the failure, and so does the body of its
command: no access follows (R143, R150). -/
theorem commandBody_of_failedSelect {i : Instr} {b : Bank} {s : State} (hb : commandBank i = some b)
    (hs : s.skips b = false) (ha : s.Answered 3) (hn : ¬ s.AllOk 3) :
    ∃ r t, selectXact b s = .done r t ∧ commandBody i s = .done r t ∧ ∀ d, r ≠ .ok d := by
  obtain ⟨r, u, hret⟩ := xact_returns (leg := .sel) (d := false)
    (s := s.setFrame (loadWrite bankSelAddr (bankCode s.params b) s.xb) .two) ha rfl
  rw [commandBody_of_bank hb, selThen]
  obtain ⟨k, -⟩ | ⟨-, ⟨t, hx, -⟩ | ⟨d, t, hx, -⟩ | ⟨c, t, hx, e⟩ | ⟨p, t, hx, e⟩⟩ := sel_cases b s
  · rw [hs] at k; cases k
  · cases hret.symm.trans hx
  · exact absurd (xact_ok_data hx).2.2 hn
  · exact ⟨_, t, hx, by rw [e]; rfl, nofun⟩
  · exact ⟨_, t, hx, by rw [e]; rfl, nofun⟩

/-- A command whose select fails ends with the result of that transaction, from its state. -/
theorem exec_failedSelect {i : Instr} {b : Bank} {s : State} (hb : commandBank i = some b)
    (hs : s.skips b = false) (ha : s.Answered 3) (hn : ¬ s.AllOk 3) :
    ∃ r u, selectXact b (latch i s) = .done r u ∧ (∀ d, r ≠ .ok d) ∧
      exec i s = .next (endCommand (resultResponse r) u) ∧
      Ended s (endCommand (resultResponse r) u) (resultResponse r) ∧ u.curBank = s.curBank := by
  obtain ⟨r, u, hx, hbody, hr⟩ := commandBody_of_failedSelect (s := latch i s) hb hs ha hn
  have hk := (latch_body i s).trans (commandBody_body i (latch i s))
  rw [hbody] at hk
  have hcur : u.curBank = s.curBank := (xactKeeps_of_done hx).curBank
  exact ⟨r, u, hx, hr, by rw [exec_eq, runCommand_done hbody], ended_endCommand _ hk, hcur⟩

/-- The status of a select that returns, from the answers (R63). -/
theorem selectXact_status {b : Bank} {s t : State} {r : Result} (h : selectXact b s = .done r t) :
    s.xactStatus 0 = some (resultResponse r).status :=
  xact_status (s := s.setFrame (loadWrite bankSelAddr (bankCode s.params b) s.xb) .two) h rfl

/-- Settles O30: the status is that of the select's transaction (R63), and only its tokens are on the bus. -/
theorem failedSelectEndsTheCommand : Obligations.FailedSelectEndsTheCommand := by
  intro i b s hb hs ha hn
  obtain ⟨r, u, hx, hr, hexec, hend, hcur⟩ := exec_failedSelect hb hs ha hn
  obtain ⟨es, he, htok, hlow⟩ := selectXact_tokens b (latch i s)
  rw [hx] at he
  have hstatus := selectXact_status hx
  have hlow1 := hlow r u hx
  cases r with
  | ok d => exact absurd rfl (hr d)
  | comm c => exact ⟨_, .comm c, es, hexec, hstatus, nofun, hend, hcur, he, hlow1, htok⟩
  | pin p => exact ⟨_, .pin p, es, hexec, hstatus, nofun, hend, hcur, he, hlow1, htok⟩

/-! ### The transition table of the bank FSM -/

/-- The failure that a select reports is one of its tokens. -/
theorem selectXact_failure_token {b : Bank} {s t : State} {r : Result} (h : selectXact b s = .done r t) :
    ∃ es, t.trace = s.trace ++ es ∧ (∀ c, r = .comm c → .writeErr [0x7F, bankCode s.params b] c ∈ es) ∧
      (∀ p, r = .pin p → .lowErr p ∈ es ∨ .highErr p ∈ es) :=
  xact_failure_token (s := s.setFrame (loadWrite bankSelAddr (bankCode s.params b) s.xb) .two) h

theorem skips_eq_true_iff {s : State} {b : Bank} :
    s.skips b = true ↔ s.params.skipRedundant = true ∧ s.curBank = b := by simp [State.skips]

/-- A request that is skipped (R141). -/
theorem exec_skippedSelect {i : Instr} {b : Bank} {s : State} (hb : commandBank i = some b) (hs : s.skips b = true) :
    sel b (latch i s) = .done (.ok []) (latch i s) ∧
    ∃ t : State, exec i s = .next t ∧ t.curBank = s.curBank ∧
      (i = .selb b → Ended s t ⟨.ok, []⟩ ∧ t.trace = s.trace) := by
  have hsel : sel b (latch i s) = .done (.ok []) (latch i s) := sel_skips hs
  refine ⟨hsel, _, exec_eq i s, ?_, ?_⟩
  · rw [(exec_bankAndTrace (exec_eq i s)).1, commandBody_of_bank hb, selThen_ok hsel]
    exact (commandAccess_bankKept i (latch i s)).1
  · rintro rfl
    have hexec := (exec_eq _ s).symm.trans (exec_selb_skipped hs)
    injection hexec with hexec
    rw [hexec]
    exact ⟨ended_endCommand _ (latch_body _ s), rfl⟩

/-- A request whose write is OK (R140, R22). -/
theorem exec_selectOk {i : Instr} {b : Bank} {s : State} (hb : commandBank i = some b) (hs : s.skips b = false)
    (h3 : s.AllOk 3) :
    (∃ u : State, sel b (latch i s) = .done (.ok []) u ∧ u.curBank = b ∧
      u.trace = s.trace ++ selectTokens s.params b) ∧
    ∃ t : State, exec i s = .next t ∧ t.curBank = b ∧ s.trace ++ selectTokens s.params b <+: t.trace ∧
      (i = .selb b → Ended s t ⟨.ok, []⟩ ∧ t.trace = s.trace ++ selectTokens s.params b) := by
  obtain ⟨u, hu, hone, hcur, -⟩ := sel_ok b (s := latch i s) hs h3
  have htr : u.trace = s.trace ++ selectTokens s.params b := hone.trace
  refine ⟨⟨u, hu, hcur, htr⟩, _, exec_eq i s, ?_⟩
  obtain ⟨hbank, htrace⟩ := exec_bankAndTrace (exec_eq i s)
  obtain ⟨hkeep, hgrow⟩ := commandAccess_bankKept i u
  rw [commandBody_of_bank hb, selThen_ok hu] at hbank htrace
  refine ⟨hbank.trans (hkeep.trans hcur), by rw [htrace, ← htr]; exact hgrow, ?_⟩
  rintro rfl
  obtain ⟨t, hexec, hend, -⟩ := exec_selb_ok b hs h3
  have heq := (exec_eq _ s).symm.trans hexec
  injection heq with heq
  rw [heq]
  exact ⟨hend.ended, hend.trace⟩

/-- A request whose write fails, with the token of the failure reported (R143). -/
theorem exec_selectFailed {i : Instr} {b : Bank} {s : State} (hb : commandBank i = some b) (hs : s.skips b = false)
    (ha : s.Answered 3) (hn : ¬ s.AllOk 3) :
    ∃ (t : State) (r : Response) (es : List Event), exec i s = .next t ∧ Ended s t r ∧
      t.curBank = s.curBank ∧ t.trace = s.trace ++ es ∧
      ((∃ c, r = ⟨.comm c, []⟩ ∧ Event.writeErr [0x7F, bankCode s.params b] c ∈ es) ∨
       (∃ p, r = ⟨.pin p, []⟩ ∧ (Event.lowErr p ∈ es ∨ Event.highErr p ∈ es))) := by
  obtain ⟨r, u, hx, hr, hexec, hend, hcur⟩ := exec_failedSelect hb hs ha hn
  obtain ⟨es, he, hcomm, hpin⟩ := selectXact_failure_token hx
  refine ⟨_, _, es, hexec, hend, hcur, he, ?_⟩
  cases r with
  | ok d => exact absurd rfl (hr d)
  | comm c => exact .inl ⟨c, rfl, hcomm c rfl⟩
  | pin p => exact .inr ⟨p, rfl, hpin p rfl⟩

/-! ### Which step writes `cur_bank` -/

theorem raise_curBank (e : Exc) (s : State) : (raise e s).curBank = s.curBank := by cases e <;> rfl

theorem loadAccessFrame_curBank (s : State) : s.loadAccessFrame.curBank = s.curBank := by
  unfold State.loadAccessFrame; split_ifs <;> rfl

theorem afterSelect_bankAndTrace (s : State) :
    (afterSelect s).curBank = s.curBank ∧ (afterSelect s).trace = s.trace := by
  unfold afterSelect
  split
  · exact ⟨rfl, rfl⟩
  · exact ⟨loadAccessFrame_curBank s, loadAccessFrame_trace s⟩

/-- Rows T0 to T3. -/
theorem accept_curBank (w : CmdWord) (s : State) : (accept w s).curBank = s.curBank := by
  cases hd : decode w with
  | illegal r => rw [accept_illegal hd]; exact raise_curBank _ s
  | cmd i =>
    rw [accept_cmd hd]
    split
    · rfl
    · exact (afterSelect_bankAndTrace (latch i s)).1

/-- Rows T4 and T7. -/
theorem seqLow_curBank (leg : Leg) (s : State) : (seqLow leg s).curBank = s.curBank := by
  obtain h | h | ⟨e, h⟩ | ⟨e, h⟩ := seqLow_run leg s <;> rw [h]
  · simp [lowOk]
  · simp [lowFail]
  · simp [raise_curBank, lowFail]

/-- Rows T5 and T8. -/
theorem seqData_curBank (leg : Leg) (d : Bool) (s : State) : (seqData leg d s).curBank = s.curBank := by
  obtain h | h | ⟨e, h⟩ := seqData_run leg d s <;> rw [h]
  · cases d <;> simp [dataOk]
  · cases d <;> simp [dataFail]

/-- A failed `cs_high` leaves an error pending (R186). -/
theorem noteHigh_some_ne_none (df : DoubleFault) (p : PinErr) (q : Pend) : noteHigh df (some p) q ≠ .none := by
  cases q with
  | none => nofun
  | pin p => nofun
  | comm c => cases df <;> nofun

/-- A pending error is raised, and leaves `cur_bank` (R143, R188, R189). -/
theorem afterHigh_curBank {q : Pend} (h : q ≠ .none) (ok : State → State) (s : State) :
    (afterHigh ok q s).curBank = s.curBank := by
  cases q with
  | none => exact absurd rfl h
  | comm c => rfl
  | pin p => rfl

/-- Rows T6 and T9: `cur_bank` changes only by what follows a success, a `cs_high` answered ok with no error pending. -/
theorem seqHigh_curBank {ok : State → State} {s : State} (h : (seqHigh ok s).curBank ≠ s.curBank) :
    s.pend = .none ∧ s.answerAt 0 = .ok ∧ seqHigh ok s = ok (highOk s) := by
  unfold seqHigh at h ⊢
  cases h0 : s.answerAt 0 with
  | silent => rw [csHigh_silent h0] at h; exact absurd rfl h
  | fail e =>
    rw [csHigh_fail h0] at h
    exact absurd ((afterHigh_curBank (noteHigh_some_ne_none _ _ _) ok _).trans (by simp [highFail])) h
  | ok =>
    rw [csHigh_ok h0] at h ⊢
    have hpend : (highOk s).pend = s.pend := by simp [highOk]
    simp only [noteHigh, hpend] at h ⊢
    by_cases hn : s.pend = .none
    · rw [hn]; exact ⟨rfl, trivial, rfl⟩
    · exact absurd ((afterHigh_curBank hn ok _).trans (by simp [highOk])) h

/-- Rows T9b and T9c. -/
theorem seqAccessed_curBank (s : State) : (seqAccessed s).curBank = s.curBank := by
  unfold seqAccessed; split <;> rfl

/-- The one step of a command in progress that changes `cur_bank`: the end of its select (rows T6b and T6c). -/
theorem seqStep_curBank {s : State} (h : (seqStep s).curBank ≠ s.curBank) :
    s.ph = .sHigh ∧ s.pend = .none ∧ s.answerAt 0 = .ok ∧ (seqStep s).curBank = s.cBank ∧
      (seqStep s).trace = s.trace ++ [.high] := by
  cases hp : s.ph with
  | idle => rw [seqStep, hp] at h; exact absurd rfl h
  | sLow => rw [seqStep_sLow hp] at h; exact absurd (seqLow_curBank ..) h
  | sData => rw [seqStep_sData hp] at h; exact absurd (seqData_curBank ..) h
  | aLow => rw [seqStep_aLow hp] at h; exact absurd (seqLow_curBank ..) h
  | aData => rw [seqStep_aData hp] at h; exact absurd (seqData_curBank ..) h
  | aHigh =>
    rw [seqStep_aHigh hp] at h
    obtain ⟨-, -, e⟩ := seqHigh_curBank h
    rw [e, seqAccessed_curBank] at h
    exact absurd (by simp [highOk]) h
  | sHigh =>
    rw [seqStep_sHigh hp] at h ⊢
    obtain ⟨hn, h0, e⟩ := seqHigh_curBank h
    have hb : (highOk s).cBank = s.cBank := by simp [highOk]
    obtain ⟨hcur, htr⟩ := afterSelect_bankAndTrace ((highOk s).setCurBank s.cBank)
    rw [e, seqSelected_eq, hb]
    exact ⟨rfl, hn, h0, hcur, htr.trans (highOk_trace s)⟩

/-- A step out of reset that changes `cur_bank` (R22, R142). -/
theorem step_curBank {s t : State} (hr : s.rst = false) (h : step s = .next t) (hne : t.curBank ≠ s.curBank) :
    (s.ph = .sHigh ∧ s.pend = .none ∧ s.answerAt 0 = .ok ∧ t.curBank = s.cBank ∧ t.trace = s.trace ++ [.high]) ∨
    (s.ph = .idle ∧ ∃ (w : CmdWord) (i : Instr), s.presented = some w ∧ decode w = .cmd i ∧
      commandBank i = some t.curBank ∧ s.AllOk 3 ∧ s.trace ++ selectTokens s.params t.curBank <+: t.trace) := by
  cases step_run h with
  | reset hr' => rw [hr] at hr'; cases hr'
  | nothingPresented => exact absurd rfl hne
  | accepted w => exact absurd (accept_curBank w s.taken) hne
  | ran w i _ hp hw _ hd he =>
    exact .inr ⟨hp, w, i, hw, hd, curBankChangesOnlyBySuccessfulSelect i s.taken t he hne⟩
  | answeredIllegal => exact absurd (raise_curBank .illegal s.taken) hne
  | continued => exact .inl (seqStep_curBank hne)

/-- Settles O24: one lemma for each kind of request; a raw command is none, by the one way a command changes
`cur_bank`. -/
theorem bankFsmTransitions : Obligations.BankFsmTransitions := by
  have notSkipped {s : State} {b : Bank} (h : ¬(s.params.skipRedundant = true ∧ s.curBank = b)) :
      s.skips b = false := Bool.eq_false_iff.mpr (mt skips_eq_true_iff.mp h)
  refine ⟨rfl, fun i b s hb hk hc => exec_skippedSelect hb (skips_eq_true_iff.mpr ⟨hk, hc⟩),
    fun i b s hb hs => exec_selectOk hb (notSkipped hs), fun i b s hb hs => exec_selectFailed hb (notSkipped hs),
    fun i s t hb h => ?_, fun s t => step_curBank⟩
  by_contra hne
  obtain ⟨hbank, -⟩ := curBankChangesOnlyBySuccessfulSelect i s t h hne
  rw [hb] at hbank
  cases hbank

end Sys2Proof.Proofs
end

section
/-! SUPPORT. The statements of 42_banked_access.md, first part: the banked commands when nothing fails. What a command
does once its select is OK is said once (`exec_bankedRead`, `exec_wrb`), from the state `u` the select has left; that
state is the one of `sel_ok`, and on the mock the one of `sel_onMock`, where the select may be skipped. -/

namespace Sys2Proof.Proofs

open Sys2Proof.Machine Sys2Proof.Laws

/-! ### The access after a select that is OK -/

/-- From `s`, by a select that left `u`, a command has ended in `t` with OK and the data `d` of its access, whose tokens
are `tokens`. -/
structure AccessEnded (d : List Byte) (tokens : List Event) (s u t : State) : Prop where
  ended : Ended s t ⟨.ok, d⟩
  transport : t.transport = u.transport
  trace : t.trace = u.trace ++ tokens
  curBank : t.curBank = u.curBank
  cs : t.cs = .high
  script : t.script = u.script.drop 3
  answers : ∀ k, t.answerAt k = u.answerAt (k + 3)

/-- A command whose body returns ends with the response of the result. -/
theorem exec_of_body {i : Instr} {s u : State} {r : Result} (h : commandBody i (latch i s) = .done r u) :
    exec i s = .next (endCommand (resultResponse r) u) ∧
      Ended s (endCommand (resultResponse r) u) (resultResponse r) := by
  have hkeep := (latch_body i s).trans (commandBody_body i (latch i s))
  rw [h] at hkeep
  exact ⟨by rw [exec_eq, runCommand_done h], ended_endCommand _ hkeep⟩

/-- A banked command whose select is OK and whose access is one transaction that did not fail. -/
theorem exec_access {i : Instr} {b : Bank} {s u v : State} {d d' : List Byte} {tokens : List Event}
    (hb : commandBank i = some b) (hsel : sel b (latch i s) = .done (.ok d') u)
    (hacc : commandAccess i u = .done (.ok d) v) (hone : OneTransaction u v tokens) (hcur : v.curBank = u.curBank) :
    exec i s = .next (endCommand ⟨.ok, d⟩ v) ∧ AccessEnded d tokens s u (endCommand ⟨.ok, d⟩ v) := by
  have hbody : commandBody i (latch i s) = .done (.ok d) v := by
    rw [commandBody_of_bank hb, selThen_ok hsel]; exact hacc
  obtain ⟨hexec, hend⟩ := exec_of_body hbody
  exact ⟨hexec, hend, hone.transport, hone.trace, hcur, hone.cs, hone.script, hone.answers⟩

/-- `RDB` and `RDVB` once their select is OK: one read frame and the data of its response, which on the mock are the
bytes of the bank the device is in. -/
theorem exec_bankedRead {i : Instr} {b : Bank} {a : Addr} {n : FrameLen} (hb : commandBank i = some b)
    (hi : commandAccess i = memRead .acc a n) {s u : State} {d : List Byte}
    (hsel : sel b (latch i s) = .done (.ok d) u) (h3 : u.AllOk 3) (hr : ReadServed a n u) :
    ∃ (t : State) (resp : XBuf), exec i s = .next t ∧
      AccessEnded (resp.data n) [.low, .transfer ((loadRead a n u.xb).frame n) (resp.frame n), .high] s u t ∧
      (u.transport = .mock → t.dSel = u.dSel ∧ t.mem = u.mem ∧ resp.data n = deviceData u a n) := by
  obtain ⟨v, resp, hv, hone, hcur, hdev, hresp⟩ := memRead_ok .acc a n h3 hr
  obtain ⟨hexec, hend⟩ := exec_access hb hsel (by rw [hi]; exact hv) hone hcur
  refine ⟨_, resp, hexec, hend, fun hm => ⟨(hdev hm).1, (hdev hm).2, ?_⟩⟩
  rw [hresp]
  exact exchangedResponse_deviceData hm (hr hm)

/-- `WRB` once its select is OK: one write frame, on the mock the byte stored in the bank the device is in. -/
theorem exec_wrb {b : Bank} {a : Addr} {v : Byte} {s u : State} {d : List Byte}
    (hsel : sel b (latch (.wrb b a v) s) = .done (.ok d) u) (h3 : u.AllOk 3) :
    ∃ t : State, exec (.wrb b a v) s = .next t ∧
      AccessEnded [] [.low, .write [writeAddrByte a, v], .high] s u t ∧
      (u.transport = .mock → t.dSel = (u.devStore a v).dSel ∧ t.mem = (u.devStore a v).mem) := by
  obtain ⟨w, hw, hone, hcur, hdev⟩ := memWrite_ok .acc a v h3
  obtain ⟨hexec, hend⟩ := exec_access (i := .wrb b a v) rfl hsel hw hone hcur
  exact ⟨_, hexec, hend, hdev⟩

/-! ### The device in the bank selected -/

/-- Outside 0x7F a byte of the device depends on `d_reg` only (R36). -/
theorem devByte_of_mem {s t : State} (h : t.mem = s.mem) {a : Addr} (ha : a ≠ 0x7F) (b : Bank) :
    t.devByte b a = s.devByte b a := sameDeviceBut_of_mem h b a (regKey_ne_sel b 0 ha)

/-- The six bytes a block read returns of bank `b` (R65): only the sixth can be the bank-select register. -/
theorem deviceData_block {s u : State} {b : Bank} {a : Addr} (hbank : u.dBank = b) (hmem : u.mem = s.mem)
    (ha : a.toNat + 5 ≤ 0x7F) : deviceData u a .seven =
      [s.devByte b a, s.devByte b (a + 1), s.devByte b (a + 2), s.devByte b (a + 3), s.devByte b (a + 4),
        u.devByte b (a + 5)] := by
  have before (k : Addr) (hk : k.toNat < 5) : u.devByte b (a + k) = s.devByte b (a + k) := by
    have hne : a + k ≠ 0x7F := by bv_omega
    exact devByte_of_mem hmem hne b
  have first : u.devByte b a = s.devByte b a := by simpa using before 0 (by decide)
  subst hbank
  simp only [deviceData, first, before 1 (by decide), before 2 (by decide), before 3 (by decide), before 4 (by decide)]

/-- What the store of an access changes outside 0x7F, the device being in bank `b` (R64). -/
theorem devByte_devStore_other {s u : State} {b : Bank} (hbank : u.dBank = b) (hmem : u.mem = s.mem) (a : Addr)
    (v : Byte) {b' : Bank} {a' : Addr} (ha' : a' ≠ 0x7F) (hk : regKey b' a' ≠ regKey b a) :
    (u.devStore a v).devByte b' a' = s.devByte b' a' := by
  subst hbank
  exact (devStore_other a v u b' a' hk).trans (devByte_of_mem hmem ha' b')

/-! ### A select that is not skipped -/

/-- The answers that are left after the select. -/
theorem allOk_afterSelect {i : Instr} {s u : State} {tokens : List Event} {n : Nat}
    (hone : OneTransaction (latch i s) u tokens) (h : s.AllOk (3 + n)) : u.AllOk n := AllOk.shift h hone.answers

/-- The device is in the bank whose code has been written (R35, R101). -/
theorem dBank_afterSelect {i : Instr} {b : Bank} {s u : State} {tokens : List Event}
    (hone : OneTransaction (latch i s) u tokens) (h : u.dSel = bankCode s.params b) : u.dBank = b :=
  dBank_of_bankCode (by rw [h, hone.params, latch_params])

/-- The script after both transactions of a command. -/
theorem AccessEnded.script_six {i : Instr} {d : List Byte} {tokens tokens' : List Event} {s u t : State}
    (h : AccessEnded d tokens s u t) (hone : OneTransaction (latch i s) u tokens') : t.script = s.script.drop 6 := by
  rw [h.script, hone.script, latch_script, List.drop_drop]

/-- Settles O25: the select, then a read of two bytes. -/
theorem rdbSelectsThenReads : Obligations.RdbSelectsThenReads := by
  intro b a s hs h6
  obtain ⟨u, hu, hone, hcur, hdev⟩ := sel_ok b (s := latch (.rdb b a) s) hs (AllOk.mono h6 (by omega))
  obtain ⟨t, resp, hexec, hend, hread⟩ := exec_bankedRead rfl rfl hu (allOk_afterSelect (n := 3) hone h6) (.two a u)
  refine ⟨t, resp.b0, resp.b1, hexec, hend.ended, by rw [hend.trace, hone.trace]; rfl, fun hm => ?_,
    hend.curBank.trans hcur, hend.cs, hend.script_six hone⟩
  obtain ⟨usel, umem⟩ := hdev hm
  obtain ⟨tsel, tmem, hdata⟩ := hread (hone.transport.trans hm)
  have hy : resp.b1 = u.devByte b a := by
    rw [← dBank_afterSelect hone usel]
    exact (List.cons.inj hdata).1
  refine ⟨hy.trans ?_, tsel.trans usel, sameDeviceBut_of_mem (tmem.trans umem)⟩
  split
  next ha => subst ha; exact (devByte_sel u b).trans usel
  next ha => exact devByte_of_mem umem ha b

/-- Settles O26: the select, then a write. -/
theorem wrbSelectsThenWrites : Obligations.WrbSelectsThenWrites := by
  intro b a v s hs h6
  obtain ⟨u, hu, hone, hcur, hdev⟩ := sel_ok b (s := latch (.wrb b a v) s) hs (AllOk.mono h6 (by omega))
  obtain ⟨t, hexec, hend, hwrite⟩ := exec_wrb hu (allOk_afterSelect (n := 3) hone h6)
  refine ⟨t, hexec, hend.ended, by rw [hend.trace, hone.trace]; rfl, fun hm => ?_,
    hend.curBank.trans hcur, hend.cs, hend.script_six hone⟩
  obtain ⟨usel, umem⟩ := hdev hm
  obtain ⟨tsel, tmem⟩ := hwrite (hone.transport.trans hm)
  have hbank := dBank_afterSelect hone usel
  have dev := devByte_congr tsel tmem
  refine ⟨?_, fun ha => ?_, fun b' a' ha' hk => (dev b' a').trans (devByte_devStore_other hbank umem a v ha' hk)⟩
  · rw [dev, ← hbank]
    exact devStore_same a v u
  · rw [tsel, devStore_reg ha]
    exact usel

/-- Where the environment gives `RDVB` a meaning, it gives its frame one (R71). -/
theorem readServed_of_rdvbServed {b : Bank} {a : Addr} {s u : State} (hu : u.transport = s.transport)
    (h : s.Served (.rdvb b a)) : ReadServed a .seven u :=
  fun hm _ => Nat.le_of_not_lt (of_decide_eq_false (h (hu.symm.trans hm)))

/-- Settles O27: the select, then a read of seven bytes. -/
theorem rdvbSelectsThenReadsSix : Obligations.RdvbSelectsThenReadsSix := by
  intro b a s hs hserved h6
  obtain ⟨u, hu, hone, hcur, hdev⟩ := sel_ok b (s := latch (.rdvb b a) s) hs (AllOk.mono h6 (by omega))
  have hr : ReadServed a .seven u := readServed_of_rdvbServed hone.transport hserved
  obtain ⟨t, resp, hexec, hend, hread⟩ := exec_bankedRead rfl rfl hu (allOk_afterSelect (n := 3) hone h6) hr
  refine ⟨t, resp.b0, resp.b1, resp.b2, resp.b3, resp.b4, resp.b5, resp.b6, hexec, hend.ended,
    by rw [hend.trace, hone.trace]; rfl, fun hm => ?_, hend.curBank.trans hcur, hend.cs, hend.script_six hone⟩
  obtain ⟨usel, umem⟩ : u.dSel = bankCode s.params b ∧ u.mem = s.mem := hdev hm
  have um := hone.transport.trans hm
  obtain ⟨tsel, tmem, hdata⟩ := hread um
  have ha := hr um rfl
  rw [deviceData_block (dBank_afterSelect hone usel) umem ha] at hdata
  have sixth : u.devByte b (a + 5) = if a = 0x7A then bankCode s.params b else s.devByte b (a + 5) := by
    split
    next h => subst h; exact (devByte_sel u b).trans usel
    next h => exact devByte_of_mem umem (by bv_omega) b
  rw [sixth] at hdata
  exact ⟨tsel.trans usel, sameDeviceBut_of_mem (tmem.trans umem), by simpa [XBuf.data] using hdata⟩

/-! ### On the mock, whether the select is skipped or not -/

/-- Shadow and device are in bank `b`, on the mock, `s` being the state before the command. -/
structure InBank (b : Bank) (s t : State) : Prop where
  transport : t.transport = .mock
  params : t.params = s.params
  curBank : t.curBank = b
  dBank : t.dBank = b
  dSel : s.params.skipRedundant = false → t.dSel = bankCode s.params b

/-- An access that stores nothing at 0x7F leaves them there. -/
theorem InBank.afterAccess {b : Bank} {d : List Byte} {tokens : List Event} {s u t : State} (h : InBank b s u)
    (hend : AccessEnded d tokens s u t) (hsel : t.dSel = u.dSel) : InBank b s t := by
  have hparams := hend.ended.keeps.params
  exact ⟨hend.transport.trans h.transport, hparams,
    hend.curBank.trans h.curBank, (dBank_congr hsel (hparams.trans h.params.symm)).trans h.dBank,
    fun hk => hsel.trans (h.dSel hk)⟩

/-- The premise of R157: always-write, or shadow and device agree. -/
def ReachesBank (s : State) : Prop := s.params.skipRedundant = false ∨ s.Coherent

theorem InBank.reachesBank {b : Bank} {s t : State} (h : InBank b s t) : ReachesBank t :=
  .inr (h.dBank.trans h.curBank.symm)

/-- SEL(b) on the mock, when nothing fails, done or skipped over a shadow that is not stale (R140, R141). -/
theorem sel_onMock (i : Instr) (b : Bank) {s : State} {n : Nat} (hm : s.transport = .mock) (h : s.AllOk (3 + n))
    (hp : ReachesBank s) :
    ∃ u, sel b (latch i s) = .done (.ok []) u ∧ InBank b s u ∧ u.mem = s.mem ∧ u.AllOk n := by
  cases hs : s.skips b with
  | false =>
    obtain ⟨u, hu, hone, hcur, hdev⟩ := sel_ok b (s := latch i s) hs (AllOk.mono h (by omega))
    obtain ⟨usel, umem⟩ := hdev hm
    exact ⟨u, hu, ⟨hone.transport.trans hm, hone.params, hcur, dBank_afterSelect hone usel, fun _ => usel⟩, umem,
      allOk_afterSelect hone h⟩
  | true =>
    obtain ⟨hskip, hcur⟩ := skips_eq_true_iff.mp hs
    have hne : s.params.skipRedundant ≠ false := by simp [hskip]
    have hcoh : s.Coherent := hp.resolve_left hne
    exact ⟨latch i s, sel_skips (s := latch i s) hs,
      ⟨hm, rfl, hcur, Eq.trans hcoh hcur, fun hk => absurd hk hne⟩, rfl, AllOk.mono h (by omega)⟩

/-- `RDB` and `RDVB` on the mock: the bytes read in the bank `u` is in. -/
theorem exec_bankedRead_onMock {i : Instr} {b : Bank} {a : Addr} {n : FrameLen} (hb : commandBank i = some b)
    (hi : commandAccess i = memRead .acc a n) (hn : n = .seven → a.toNat + 5 ≤ 0x7F) {s : State}
    (hm : s.transport = .mock) (h6 : s.AllOk 6) (hp : ReachesBank s) :
    ∃ t u : State, exec i s = .next t ∧ t.rsps = s.rsps ++ [⟨.ok, deviceData u a n⟩] ∧ InBank b s t ∧
      t.mem = s.mem ∧ u.dBank = b ∧ u.mem = s.mem := by
  obtain ⟨u, hu, hin, umem, u3⟩ := sel_onMock i b (n := 3) hm h6 hp
  obtain ⟨t, resp, hexec, hend, hread⟩ := exec_bankedRead hb hi hu u3 fun _ => hn
  obtain ⟨tsel, tmem, hdata⟩ := hread hin.transport
  exact ⟨t, u, hexec, hdata ▸ hend.ended.rsps, hin.afterAccess hend tsel, tmem.trans umem, hin.dBank, umem⟩

/-- `WRB` on the mock, not to 0x7F: the byte at (b, a) is `v`, and every other byte of `d_reg` is as before. -/
theorem exec_wrb_onMock (b : Bank) {a : Addr} (ha : a ≠ 0x7F) (v : Byte) {s : State} {n : Nat}
    (hm : s.transport = .mock) (h : s.AllOk (6 + n)) (hp : ReachesBank s) :
    ∃ t : State, exec (.wrb b a v) s = .next t ∧ t.rsps = s.rsps ++ [⟨.ok, []⟩] ∧ InBank b s t ∧
      t.devByte b a = v ∧
      (∀ (b' : Bank) (a' : Addr), a' ≠ 0x7F → (b', a') ≠ (b, a) → t.devByte b' a' = s.devByte b' a') ∧
      t.AllOk n := by
  obtain ⟨u, hu, hin, umem, un⟩ := sel_onMock (.wrb b a v) b (n := 3 + n) hm (AllOk.mono h (by omega)) hp
  obtain ⟨t, hexec, hend, hwrite⟩ := exec_wrb hu (AllOk.mono un (by omega))
  obtain ⟨tsel, tmem⟩ := hwrite hin.transport
  have dev := devByte_congr tsel tmem
  refine ⟨t, hexec, hend.ended.rsps, hin.afterAccess hend (by rw [tsel, devStore_reg ha]), ?_,
    fun b' a' ha' hne => ?_, AllOk.shift un hend.answers⟩
  · rw [dev, ← hin.dBank]
    exact devStore_same a v u
  · refine (dev b' a').trans (devByte_devStore_other hin.dBank umem a v ha' fun hk => hne ?_)
    obtain ⟨rfl, rfl⟩ := regKey_inj ha' ha hk
    rfl

/-- Settles O50: the select leaves shadow and device in bank `b`, and the access is of that bank. -/
theorem bankedAccessReachesItsBank : Obligations.BankedAccessReachesItsBank := by
  intro b a v s hm h6 ha hp
  refine ⟨?_, ?_, fun h5 => ?_⟩
  · obtain ⟨t, u, hexec, hrsps, hin, tmem, hbank, umem⟩ :=
      exec_bankedRead_onMock (i := .rdb b a) (n := .two) rfl rfl nofun hm h6 hp
    rw [deviceData, hbank, devByte_of_mem umem ha] at hrsps
    exact ⟨t, hexec, hrsps, hin.curBank, hin.dBank, tmem, hin.dSel⟩
  · obtain ⟨t, hexec, -, hin, hbyte, hother, -⟩ := exec_wrb_onMock b ha v (n := 0) hm h6 hp
    exact ⟨t, hexec, hbyte, hin.curBank, hin.dBank, hin.dSel, hother⟩
  · obtain ⟨t, u, hexec, hrsps, hin, tmem, hbank, umem⟩ :=
      exec_bankedRead_onMock (i := .rdvb b a) (n := .seven) rfl rfl (fun _ => by omega) hm h6 hp
    rw [deviceData_block hbank umem (by omega), devByte_of_mem umem (by bv_omega)] at hrsps
    exact ⟨t, hexec, hrsps, hin.curBank, hin.dBank, tmem, hin.dSel⟩

/-- Settles O51: the write leaves shadow and device agreeing and the byte of the other bank as it was. -/
theorem banksAreIndependent : Obligations.BanksAreIndependent := by
  intro b1 b2 a v s hm h12 hne ha hp
  obtain ⟨t, hwrite, hrsps, hin, -, hother, t6⟩ := exec_wrb_onMock b1 ha v (n := 6) hm h12 hp
  obtain ⟨⟨u, hread, hu, -⟩, -⟩ := bankedAccessReachesItsBank b2 a v t hin.transport t6 ha hin.reachesBank
  obtain ⟨⟨u', hread', hu', -⟩, -⟩ := bankedAccessReachesItsBank b2 a v s hm (AllOk.mono h12 (by omega)) ha hp
  have hbyte : t.devByte b2 a = s.devByte b2 a := hother b2 a ha (by simp [hne.symm])
  refine ⟨t, u, u', hwrite, hread, hread', ?_, hu'⟩
  rw [hu, hrsps, hbyte, List.append_assoc]
  rfl

end Sys2Proof.Proofs
end

section
/-! SUPPORT. The statements of 42_banked_access.md, second part: a banked command beside the raw one, and the access that
fails. Both commands have one access, which depends neither on the latches nor on the phase it starts in
(`simulatesCommand_sameMachine`, `commandAccess_setPh`). -/

namespace Sys2Proof.Proofs

open Sys2Proof.Machine Sys2Proof.Laws

/-! ### A banked command and its raw one -/

/-- The banked commands with the raw commands of the same operands (R155, R156). -/
def bankedAndRaw (b : Bank) (a : Addr) (v : Byte) : List (Instr × Instr) :=
  [(.rdb b a, .rdr a), (.wrb b a v, .wrr a v), (.rdvb b a, .rdv a)]

/-- `i` carries bank `b` and has the access that the raw command `j` is. -/
structure BankedForm (b : Bank) (i j : Instr) : Prop where
  bank : commandBank i = some b
  raw : commandBank j = none
  access : commandAccess i = commandAccess j
  notSelb : ∀ b', i ≠ .selb b'

theorem bankedForm_of_mem {b : Bank} {a : Addr} {v : Byte} {p : Instr × Instr} (h : p ∈ bankedAndRaw b a v) :
    BankedForm b p.1 p.2 := by
  simp only [bankedAndRaw, List.mem_cons, List.not_mem_nil, or_false] at h
  obtain rfl | rfl | rfl := h <;> exact ⟨rfl, rfl, rfl, nofun⟩

/-- Loading a frame leads from the same machine to the same frame in it, whatever latches and buffers held. -/
theorem simulatesCommand_sameMachine : SimulatesCommand SameMachine SameRun where
  primitives := simulates_sameRun
  between h := h.1
  skips b h := by unfold State.skips; rw [h.params, h.curBank]
  params h := h.params
  loadRead leg a n h := (h.setPh leg.low).loadRead a n
  loadWrite leg a v h := (h.setPh leg.low).loadWrite a v
  setCurBank b h := h.setCurBank b

/-- What is latched is no part of `SameMachine`. -/
theorem sameMachine_latch (i j : Instr) (s : State) : SameMachine (latch i s) (latch j s) :=
  ⟨rfl, rfl, rfl, rfl, rfl, rfl, rfl, rfl, rfl, rfl, rfl, rfl, rfl⟩

/-- What holds of the states of two runs holds along their relation. -/
theorem ranRel_and_ranState {α : Type} {R P : State → State → Prop} {x y : Ran α} (h : RanRel R x y)
    (hp : P (ranState x) (ranState y)) : RanRel (fun s t => R s t ∧ P s t) x y := by
  cases x <;> cases y
  · exact ⟨h.1, h.2, hp⟩
  · exact h.elim
  · exact h.elim
  · exact ⟨h, hp⟩

/-- A command whose select is skipped does what the raw one does (R155). -/
theorem exec_skipped {b : Bank} {i j : Instr} (hf : BankedForm b i j) {s : State} (hs : s.skips b = true) :
    ∃ t t' : State, exec i s = .next t ∧ exec j s = .next t' ∧ SameMachine t' t ∧ t.rsps = t'.rsps := by
  have hbody : commandBody i (latch i s) = commandAccess j (latch i s) := by
    rw [commandBody_of_bank hf.bank, selThen_ok (sel_skips (s := latch i s) hs), hf.access]
  have hrel := simulatesCommand_sameMachine.commandAccess j (sameMachine_latch j i s)
  rw [← hbody, ← commandBody_of_raw hf.raw] at hrel
  have hrsps : (ranState (commandBody i (latch i s))).rsps = (ranState (commandBody j (latch j s))).rsps :=
    (commandBody_body i (latch i s)).rsps.trans (commandBody_body j (latch j s)).rsps.symm
  obtain ⟨hsame, hrsps⟩ := finish_rel (ranRel_and_ranState (P := fun s t => t.rsps = s.rsps) hrel hrsps)
    fun r s t ⟨h, k⟩ => ⟨h.endCommand r r, congrArg (· ++ [r]) k⟩
  exact ⟨_, _, exec_eq i s, exec_eq j s, hsame, hrsps⟩

/-- Settles O28: the raw command leaves `cur_bank`, which is `b`. -/
theorem skippedBankedCommandIsTheRawOne : Obligations.SkippedBankedCommandIsTheRawOne := by
  intro b a v s hs p hp
  have hf := bankedForm_of_mem (v := v) hp
  obtain ⟨t, t', ht, ht', hsame, hrsps⟩ := exec_skipped hf hs
  have hcur : t'.curBank = b := by
    rw [(exec_bankAndTrace ht').1, commandBody_of_raw hf.raw, (commandAccess_bankKept p.2 _).1]
    exact (skips_eq_true_iff.mp hs).2
  exact ⟨t, t', ht, ht', hsame.trace, hrsps, hsame.ph, hsame.curBank.trans hcur, hcur, hsame.dSel, hsame.mem, hsame.cs⟩

/-! ### The sequence of SELB and the raw command -/

/-- An access sets its phases itself. -/
theorem commandAccess_setPh {i : Instr} (hi : ∀ b, i ≠ .selb b) (p : Phase) (s : State) :
    commandAccess i (s.setPh p) = commandAccess i s := by
  cases i with
  | selb b => exact absurd rfl (hi b)
  | rdr a | wrr a v | rdb b a | wrb b a v | rdv a | rdvb b a => rfl

/-- A select that is OK leaves no error pending. -/
theorem sel_ok_pend {b : Bank} {s u : State} {d : List Byte} (hn : s.pend = .none) (h : sel b s = .done (.ok d) u) :
    u.pend = .none := by
  obtain ⟨-, e⟩ | ⟨-, ⟨t, -, e⟩ | ⟨d', t, hx, e⟩ | ⟨c, t, -, e⟩ | ⟨p, t, -, e⟩⟩ := sel_cases b s <;>
    rw [e] at h <;> cases h
  · exact hn
  · exact (xact_ok_data hx).2.1

/-- The frame of a command that the environment serves has a meaning (R71). -/
theorem AccessFrame.served {i : Instr} {s : State} (h : AccessFrame i s) (hs : s.Served i) :
    (!opIsWrite i.fields.op && s.pastMock) = false := by
  refine h.past.trans ?_
  cases ht : s.transport with
  | free => rfl
  | mock => exact hs ht

/-- The access of a command is OK if its three invocations are and its frame has a meaning. -/
theorem commandAccess_ok {i : Instr} (hi : ∀ b, i ≠ .selb b) {s : State} (hs : s.Served i) (h3 : s.AllOk 3) :
    ∃ d u, commandAccess i s = .done (.ok d) u := by
  obtain ⟨x, n, hf, e⟩ := commandAccess_xact hi s
  rw [e, xact_allOk (s := s.setFrame x n) h3 (hf.served hs)]
  unfold accessResult
  split <;> exact ⟨_, _, rfl⟩

/-- SEL(b) when nothing fails, done or skipped, with the answers it leaves. -/
theorem sel_noFailure (b : Bank) {s : State} {n : Nat} (h : s.AllOk (3 + n)) :
    ∃ u, sel b s = .done (.ok []) u ∧ u.transport = s.transport ∧ u.AllOk n := by
  cases hs : s.skips b with
  | false =>
    obtain ⟨u, hu, hone, -⟩ := sel_ok b hs (AllOk.mono h (by omega))
    exact ⟨u, hu, hone.transport, AllOk.shift h hone.answers⟩
  | true => exact ⟨s, sel_skips hs, rfl, AllOk.mono h (by omega)⟩

/-- Two runs that are related have returned the same. -/
theorem done_of_ranRel {α : Type} {R : State → State → Prop} {x : Ran α} {a : α} {t : State}
    (h : RanRel R x (.done a t)) : ∃ s, x = .done a s ∧ R s t := by
  cases x with
  | done b s => obtain ⟨rfl, h⟩ := h; exact ⟨s, rfl, h⟩
  | waiting s => exact h.elim

/-- `SELB` and the raw command leave what the banked command leaves, and its response after one more (R156). -/
theorem exec_selbThenRaw {b : Bank} {i j : Instr} (hf : BankedForm b i j) {s : State} (h6 : s.AllOk 6)
    (hserved : s.Served i) :
    ∃ (t t1 t2 : State) (r : Response), exec i s = .next t ∧ exec (.selb b) s = .next t1 ∧
      exec j t1 = .next t2 ∧ SameMachine t2 t ∧
      t.rsps = s.rsps ++ [r] ∧ t2.rsps = s.rsps ++ [⟨.ok, []⟩, r] := by
  obtain ⟨u, hu, utransport, u3⟩ := sel_noFailure b (s := latch i s) (n := 3) h6
  have hrel := simulatesCommand_sameMachine.sel b (sameMachine_latch (.selb b) i s)
  rw [hu] at hrel
  obtain ⟨u1, hu1, hsame⟩ := done_of_ranRel hrel
  obtain ⟨hselb, hend1⟩ := exec_of_body (i := .selb b) hu1
  obtain ⟨d, v, hv⟩ := commandAccess_ok hf.notSelb (fun hm => hserved (utransport.symm.trans hm)) u3
  have hbody : commandBody i (latch i s) = .done (.ok d) v := by
    rw [commandBody_of_bank hf.bank, selThen_ok hu, hv]
  obtain ⟨hbanked, hend⟩ := exec_of_body hbody
  have hpend : u.pend = .none := sel_ok_pend (s := latch i s) rfl hu
  have hstart : SameMachine (latch j (endCommand (resultResponse (.ok [])) u1)) (u.setPh .idle) :=
    { hsame with ph := rfl, pend := hpend }
  have hacc := simulatesCommand_sameMachine.commandAccess j hstart
  rw [commandAccess_setPh (ne_selb_of_raw hf.raw), ← hf.access, hv, hf.access, ← commandBody_of_raw hf.raw] at hacc
  obtain ⟨w, hw, hsame2⟩ := done_of_ranRel hacc
  obtain ⟨hraw, hend2⟩ := exec_of_body hw
  refine ⟨_, _, _, ⟨.ok, d⟩, hbanked, hselb, hraw, hsame2.endCommand _ _, hend.rsps, ?_⟩
  rw [hend2.rsps, hend1.rsps, List.append_assoc]
  rfl

/-- A response that is not OK stops a host that does not go on (R170, R205). -/
theorem stopped_of_ended {s t : State} {r : Response} (h : Ended s t r) (hr : r.status ≠ .ok)
    (hg : s.host.goesOn = false) : t.host.stopped = true := by
  rw [h.stopped, HostState.receive, if_neg (by simp [hr, hg])]

/-- A result that is not OK is a status that is not OK, with no data (R96). -/
theorem resultResponse_of_failed {r : Result} (h : ∀ d, r ≠ .ok d) :
    (resultResponse r).status ≠ .ok ∧ resultResponse r = ⟨(resultResponse r).status, []⟩ := by
  cases r with
  | ok d => exact absurd rfl (h d)
  | comm c => exact ⟨nofun, rfl⟩
  | pin p => exact ⟨nofun, rfl⟩

/-- A command whose select fails leaves what `SELB` leaves that fails so (R143, R156). -/
theorem exec_failedSelect_selb {i : Instr} {b : Bank} (hb : commandBank i = some b) {s : State}
    (hs : s.skips b = false) (ha : s.Answered 3) (hn : ¬ s.AllOk 3) :
    ∃ (t t1 : State) (r : Response), exec i s = .next t ∧ exec (.selb b) s = .next t1 ∧ SameMachine t1 t ∧
      Ended s t r ∧ Ended s t1 r ∧ r.status ≠ .ok := by
  obtain ⟨r, u, hx, hbody, hr⟩ := commandBody_of_failedSelect (s := latch i s) hb hs ha hn
  obtain ⟨r', u', hx', hselb, -⟩ := commandBody_of_failedSelect (i := .selb b) (s := latch i s) rfl hs ha hn
  obtain ⟨rfl, rfl⟩ : r = r' ∧ u = u' := by rw [hx] at hx'; cases hx'; exact ⟨rfl, rfl⟩
  have hrel := simulatesCommand_sameMachine.commandBody (.selb b) (sameMachine_latch (.selb b) i s)
  rw [hselb] at hrel
  obtain ⟨u1, hu1, hsame⟩ := done_of_ranRel hrel
  obtain ⟨hexec, hend⟩ := exec_of_body hbody
  obtain ⟨hexec1, hend1⟩ := exec_of_body hu1
  exact ⟨_, _, resultResponse r, hexec, hexec1, hsame.endCommand _ _, hend, hend1, (resultResponse_of_failed hr).1⟩

/-- Settles O52: a select of the same bank, then the same access; or the same select that fails. -/
theorem bankedCommandIsSelectThenRaw : Obligations.BankedCommandIsSelectThenRaw := by
  intro b a v s p hp
  have hf := bankedForm_of_mem (v := v) hp
  refine ⟨fun h6 hserved => exec_selbThenRaw hf h6 hserved, fun hs ha hn => ?_⟩
  obtain ⟨t, t1, r, ht, ht1, hsame, hend, hend1, hr⟩ := exec_failedSelect_selb hf.bank hs ha hn
  exact ⟨t, t1, r, ht, ht1, hsame, hend.rsps, hend1.rsps, hr,
    fun hg => ⟨stopped_of_ended hend1 hr hg, stopped_of_ended hend hr hg⟩⟩

/-! ### An access that fails -/

/-- An access that does not write to 0x7F leaves the bank the mock is in, whatever is answered (R64, R65). -/
theorem commandAccess_dSel {i : Instr} {b : Bank} (hb : commandBank i = some b) (hi : ∀ v, i ≠ .wrb b 0x7F v)
    {s : State} (hm : s.transport = .mock) : (ranState (commandAccess i s)).dSel = s.dSel := by
  cases i with
  | selb b' => rfl
  | rdr a | wrr a v | rdv a => cases hb
  | rdb b' a => exact (memRead_device .acc a .two hm).1
  | rdvb b' a => exact (memRead_device .acc a .seven hm).1
  | wrb b' a v =>
    cases hb
    have ha : a ≠ bankSelAddr := by rintro rfl; exact hi v rfl
    obtain ⟨h, -⟩ | ⟨v', h, -⟩ := memWrite_device .acc a v hm
    · exact h
    · exact h.trans (by rw [devStore_reg ha])

/-- The status of a transaction that begins after `m` invocations (R63). -/
theorem xactStatus_shift {s u : State} {m : Nat} (hp : u.params = s.params)
    (h : ∀ k, u.answerAt k = s.answerAt (k + m)) : u.xactStatus 0 = s.xactStatus m := by
  unfold State.xactStatus
  simp only [h, hp, Nat.zero_add, Nat.add_zero, Nat.add_comm _ m]

/-- An access one of whose invocations fails returns the failure that R63 names. -/
theorem commandAccess_failed {i : Instr} (hi : ∀ b, i ≠ .selb b) {s : State} (hs : s.Served i) (ha : s.Answered 3)
    (hn : ¬ s.AllOk 3) : ∃ r u, commandAccess i s = .done r u ∧
      s.xactStatus 0 = some (resultResponse r).status ∧ ∀ d, r ≠ .ok d := by
  obtain ⟨x, n, hf, e⟩ := commandAccess_xact hi s
  have hp := hf.served hs
  obtain ⟨r, u, hx⟩ := xact_returns (leg := .acc) (s := s.setFrame x n) ha hp
  have hstatus : s.xactStatus 0 = some (resultResponse r).status :=
    xact_status (s := s.setFrame x n) hx hp
  rw [e, hx, bind_done]
  cases r with
  | ok d => exact absurd (xact_ok_data hx).2.2 hn
  | comm c => exact ⟨.comm c, u, by rw [accessResult_comm], hstatus, nofun⟩
  | pin p => exact ⟨.pin p, u, by rw [accessResult_pin], hstatus, nofun⟩

/-- The answers to the access fail if those to the command do and those to its select do not. -/
theorem not_allOk_afterSelect {s u : State} (h3 : s.AllOk 3) (hn : ¬ s.AllOk 6)
    (h : ∀ k, u.answerAt k = s.answerAt (k + 3)) : ¬ u.AllOk 3 := fun hu => hn fun k hk => by
  by_cases hk3 : k < 3
  · exact h3 k hk3
  · have hk' := hu (k - 3) (by omega)
    rwa [h, Nat.sub_add_cancel (by omega)] at hk'

/-- Settles O31: the access is one transaction from the state the select has left; it leaves `cur_bank` and, unless it
writes to 0x7F, the bank the device is in. -/
theorem failedAccessKeepsTheSelect : Obligations.FailedAccessKeepsTheSelect := by
  intro i b s hb hne hs hserved h3 ha hn
  have hi (b' : Bank) : i ≠ .selb b' := by rintro rfl; cases hb; exact hne rfl
  obtain ⟨u, hu, hone, hcur, hdev⟩ := sel_ok b (s := latch i s) hs h3
  have utransport : u.transport = s.transport := hone.transport
  obtain ⟨r, v, hv, hstatus, hr⟩ := commandAccess_failed hi (fun hm => hserved (utransport.symm.trans hm))
    (Answered.shift (n := 3) ha hone.answers) (not_allOk_afterSelect h3 hn hone.answers)
  rw [xactStatus_shift (s := s) hone.params hone.answers] at hstatus
  have hbody : commandBody i (latch i s) = .done r v := by rw [commandBody_of_bank hb, selThen_ok hu, hv]
  obtain ⟨hexec, hend⟩ := exec_of_body hbody
  obtain ⟨es, he, -, hlow, -⟩ := commandAccess_balanced hi hv
  have hkept := (commandAccess_bankKept i u).1
  rw [hv] at hkept
  have htrace : v.trace = s.trace ++ selectTokens s.params b ++ es := by rw [he, hone.trace]; rfl
  have hsel (hm : s.transport = .mock) (hw : ∀ v, i ≠ .wrb b 0x7F v) : v.dSel = bankCode s.params b := by
    have hkeep := commandAccess_dSel hb hw (utransport.trans hm)
    rw [hv] at hkeep
    exact hkeep.trans (hdev hm).1
  obtain ⟨hstatusNe, hresp⟩ := resultResponse_of_failed hr
  exact ⟨_, _, es, hexec, hstatus, hstatusNe, by rw [← hresp]; exact hend, hkept.trans hcur, htrace, hlow, hsel⟩

/-! ### The frame of WRB -/

/-- Outside 0x7F a select changes nothing of the mock; what the access changes there, it changes after a select that is
OK (R150). -/
theorem selThen_devByte {b : Bank} {f : State → Ran Result} {s : State} {b' : Bank} {a' : Addr}
    (hm : s.transport = .mock) (ha' : a' ≠ 0x7F)
    (hf : ∀ d u, sel b s = .done (.ok d) u → (ranState (f u)).devByte b' a' = u.devByte b' a') :
    (ranState (selThen b f s)).devByte b' a' = s.devByte b' a' := by
  have hmem := sel_mem b hm
  unfold selThen
  cases e : sel b s with
  | waiting u => rw [e] at hmem; exact devByte_of_mem hmem ha' b'
  | done r u =>
    rw [e] at hmem
    have hu := devByte_of_mem hmem ha' b'
    cases r with
    | ok d => exact (hf d u e).trans hu
    | comm c => exact hu
    | pin p => exact hu

/-- Settles O38: the access stores at most at `a` of the bank the device is in when the select has returned OK. -/
theorem wrbTouchesOnlyItsTargets : Obligations.WrbTouchesOnlyItsTargets := by
  intro b a v s t hm h b' a' ha' htarget
  obtain ⟨tsel, tmem⟩ := exec_device h
  rw [devByte_congr tsel tmem]
  refine selThen_devByte (s := latch (.wrb b a v) s) hm ha' fun d u hu => ?_
  have htransport := (sel_body b (latch (.wrb b a v) s)).transport
  rw [hu] at htransport
  exact (memWrite_device .acc a v (htransport.trans hm)).but b' a' (htarget d u hu)

end Sys2Proof.Proofs
end

section
/-! SUPPORT. The statements of 43_host_sequences.md, first part: the temperature formula. -/

namespace Sys2Proof.Proofs

open Sys2Proof.Machine

/-- The fraction lies within half a hundredth of `c` hundredths: the comparison in integers, that can be evaluated. -/
def nearHundredths (c : Nat) (q : Frac) : Bool :=
  decide (0 < q.den) && decide (2 * (100 * q.num - c * q.den).natAbs < q.den)

theorem abs_sub_lt_of_nearHundredths {c : Nat} {q : Frac} (h : nearHundredths c q = true) :
    |q.value - c / 100| < 5 / 1000 := by
  obtain ⟨hden, hnear⟩ : 0 < q.den ∧ 2 * (100 * q.num - c * q.den).natAbs < q.den := by simpa [nearHundredths] using h
  have hd : (0 : Rat) < q.den := by exact_mod_cast hden
  have hn : 2 * |100 * (q.num : Rat) - c * q.den| < q.den := by
    rw [← Nat.cast_lt (α := Rat)] at hnear
    simpa [Nat.cast_natAbs] using hnear
  have he : q.value - c / 100 = (100 * q.num - c * q.den) / (100 * q.den) := by
    unfold Frac.value
    field_simp
  rw [he, abs_div, abs_of_pos (by positivity : (0 : Rat) < 100 * q.den), div_lt_iff₀ (by positivity)]
  linarith

/-- The worked examples of R179 in 32-bit floating point: one evaluation for each rounding and precision. -/
theorem temp32_worked_examples (mode : Rounding) (eval : TempEval) :
    nearHundredths 2094 (temp32 mode eval 0).frac = true ∧ nearHundredths 2194 (temp32 mode eval 333).frac = true := by
  cases mode <;> cases eval <;> decide

/-- Settles O55: the formula is a field identity; the results in floating point are compared in integers. -/
theorem temperatureFormula : Obligations.TemperatureFormula := by
  refine ⟨fun raw => ?_, ?_, ?_, fun mode eval => ?_⟩
  · unfold tempFormula
    ring
  · norm_num [tempFormula, abs_lt]
  · norm_num [tempFormula, abs_lt]
  · obtain ⟨h0, h333⟩ := temp32_worked_examples mode eval
    exact ⟨abs_sub_lt_of_nearHundredths h0, abs_sub_lt_of_nearHundredths h333⟩

end Sys2Proof.Proofs
end

section
/-! SUPPORT. The statements of 43_host_sequences.md, last part: the host's operations on the mock. A command that ended OK
hands its data to the host (`issue_of_endedOk`), and one that the host goes on from has ended so (`issue_eq_ok`). -/

namespace Sys2Proof.Proofs

open Sys2Proof.Machine Sys2Proof.Laws

/-! ### A command issued by the host -/

@[simp] theorem andThen_ok {α β : Type} (a : α) (s : State) (f : α → State → HostResult β × State) :
    HostResult.andThen (.ok a, s) f = f a s := rfl

theorem exec_eq_afterCommand (i : Instr) (s : State) : exec i s = .next (afterCommand i s) := by
  unfold afterCommand
  rw [exec_eq]

/-- The host receives the one response a command sends (R170). -/
theorem issue_of_response {i : Instr} {s t : State} {r : Response} (h : exec i s = .next t)
    (hr : t.rsps = s.rsps ++ [r]) : issue i s = (hostResult r, t) := by
  simp [issue, afterCommand, h, hr]

theorem issue_of_endedOk {i : Instr} {m : Nat} {d : List Byte} {tokens : List Event} {s t : State}
    (h : exec i s = .next t) (hend : EndedOk m d tokens s t) : issue i s = (.ok d, t) :=
  issue_of_response h hend.ended.rsps

/-- Where the host goes on, the body of its command has returned OK (R170, R177). -/
theorem issue_eq_ok {i : Instr} {s t : State} {d : List Byte} (h : issue i s = (.ok d, t)) :
    ∃ u, commandBody i (latch i s) = .done (.ok d) u ∧ t = endCommand ⟨.ok, d⟩ u := by
  obtain ⟨r, u, hu, ht⟩ | hw := exec_cases (exec_eq_afterCommand i s)
  · have hrsps := (exec_of_body hu).2.rsps
    have he := exec_eq_afterCommand i s
    rw [ht] at he
    rw [issue_of_response he hrsps] at h
    cases r <;> cases h
    exact ⟨u, hu, rfl⟩
  · have hrsps := ((latch_body i s).trans (commandBody_body i (latch i s))).rsps
    rw [hw] at hrsps
    replace hrsps : (afterCommand i s).rsps = s.rsps := hrsps
    simp [issue, hrsps] at h

/-! ### The host's commands on the mock, in Bank0 -/

/-- On the mock, shadow and device are in Bank0, whose registers hold what they hold in `s`, 0x7F apart, and the next `n`
invocations are answered ok. -/
structure AtBankZero (n : Nat) (s t : State) : Prop extends InBank 0 s t where
  bytes : ∀ a, a ≠ 0x7F → t.devByte 0 a = s.devByte 0 a
  allOk : t.AllOk n

/-- `SELB 0` under always-write, with which every operation but `NEW` and the vector reads begins (R172, R174, R178). -/
theorem issue_selb_zero {s : State} {n : Nat} (hm : s.transport = .mock) (h : s.AllOk (3 + n))
    (hp : s.params.skipRedundant = false) : ∃ t : State, issue (.selb 0) s = (.ok [], t) ∧
      EndedOk 3 [] (selectTokens s.params 0) s t ∧ AtBankZero n s t := by
  obtain ⟨t, hexec, hend, hcur, hdev⟩ :=
    exec_selb_ok 0 (s := s) (by simp [State.skips, hp]) (AllOk.mono h (by omega))
  obtain ⟨tsel, tmem⟩ := hdev hm
  have hkeeps := hend.ended.keeps
  have hbank : t.dBank = 0 := dBank_of_bankCode (by rw [tsel, hkeeps.params])
  exact ⟨t, issue_of_endedOk hexec hend, hend,
    ⟨hkeeps.transport.trans hm, hkeeps.params, hcur, hbank, fun _ => tsel⟩,
    fun a ha => devByte_of_mem tmem ha 0, AllOk.shift h hend.answers⟩

/-- `RDR a` in Bank0: the byte is that of Bank0, and everything stays. -/
theorem issue_rdr_atBankZero {n : Nat} {s t : State} (h : AtBankZero (3 + n) s t) {a : Addr} (ha : a ≠ 0x7F) :
    ∃ (u : State) (x : Byte), issue (.rdr a) t = (.ok [s.devByte 0 a], u) ∧
      EndedOk 3 [s.devByte 0 a] [.low, .transfer [readAddrByte a, 0x00] [x, s.devByte 0 a], .high] t u ∧
      AtBankZero n s u := by
  obtain ⟨u, resp, hexec, hend, hcur, hdev⟩ :=
    exec_read_ok (i := .rdr a) (n := .two) rfl (AllOk.mono h.allOk (by omega)) (.two a t)
  obtain ⟨hsame, hdata⟩ := hdev h.transport
  have hbyte : resp.b1 = s.devByte 0 a := by
    rw [(List.cons.inj hdata).1, h.dBank]
    exact h.bytes a ha
  have hsel : u.dSel = t.dSel := by rw [← devByte_sel u 0, hsame, devByte_sel]
  have hkeeps := hend.ended.keeps
  rw [show resp.data .two = [resp.b1] from rfl, show resp.frame .two = [resp.b0, resp.b1] from rfl, hbyte] at hend
  exact ⟨u, resp.b0, issue_of_endedOk hexec hend, hend, ⟨hkeeps.transport.trans h.transport,
    hkeeps.params.trans h.params, hcur.trans h.curBank, (dBank_congr hsel hkeeps.params).trans h.dBank,
    fun hk => hsel.trans (h.dSel hk)⟩, fun a ha => (hsame 0 a).trans (h.bytes a ha), AllOk.shift h.allOk hend.answers⟩

/-! ### The vectors and the temperature -/

/-- A vector read of Bank0 that does not reach 0x7F (R180). -/
theorem facadeVector_onMock {s : State} (hm : s.transport = .mock) (h6 : s.AllOk 6)
    (hp : s.params.skipRedundant = false) {a : Addr} (ha : a.toNat + 5 ≤ 0x7E) :
    ∃ t : State, facadeVector a s = (.ok (vec3 s.params.vecByteOrder (s.devByte 0 a) (s.devByte 0 (a + 1))
      (s.devByte 0 (a + 2)) (s.devByte 0 (a + 3)) (s.devByte 0 (a + 4)) (s.devByte 0 (a + 5))), t) ∧ t.curBank = 0 := by
  have hne : a ≠ 0x7F := by bv_omega
  obtain ⟨-, -, hread⟩ := bankedAccessReachesItsBank 0 a 0 s hm h6 hne (.inl hp)
  obtain ⟨t, hexec, hrsps, hcur, -⟩ := hread ha
  refine ⟨t, ?_, hcur⟩
  unfold facadeVector
  rw [issue_of_response hexec hrsps, ← (commandsKeepTheRest _ s t hexec).1.params]
  rfl

/-- Settles O56: the reads after the select find the device in Bank0. -/
theorem facadeReadsReturnTheBytesAssembled : Obligations.FacadeReadsReturnTheBytesAssembled := by
  intro s hm h9 hp
  refine ⟨?_, facadeVector_onMock (a := 0x2D) hm (AllOk.mono h9 (by omega)) hp (by decide),
    facadeVector_onMock (a := 0x33) hm (AllOk.mono h9 (by omega)) hp (by decide)⟩
  obtain ⟨t, ht, -, h6⟩ := issue_selb_zero (n := 6) hm h9 hp
  obtain ⟨u, -, hu, -, h3⟩ := issue_rdr_atBankZero (n := 3) h6 (a := 0x39) (by decide)
  obtain ⟨v, -, hv, -, h0⟩ := issue_rdr_atBankZero (n := 0) h3 (a := 0x3A) (by decide)
  refine ⟨v, ?_, h0.curBank⟩
  unfold facadeGetTemp NamedReg.addr
  rw [ht, andThen_ok, hu, andThen_ok, singleByte, andThen_ok, hv, andThen_ok, singleByte, andThen_ok]

/-! ### NEW -/

theorem bankCode_zero (p : Params) : bankCode p 0 = 0 := by simp [bankCode]

/-- Settles O58: the boot select is the bank-select frame of Bank0 under either policy; where it is a raw write, the shadow
is the one RST has left (R220, R225). -/
theorem newAgreesOnBankZero : Obligations.NewAgreesOnBankZero := by
  intro s hm h3
  have hr : (assertRst s).AllOk 3 := h3
  unfold facadeNew bootCommand
  cases hk : s.params.skipRedundant with
  | false =>
    obtain ⟨t, ht, hend, h0⟩ := issue_selb_zero (n := 0) (s := assertRst s) hm hr hk
    refine ⟨t, congrArg (HostResult.andThen · _) ht, h0.curBank, h0.dBank, ?_⟩
    rw [hend.trace, selectTokens, bankCode_zero, assertRst_trace]
  | true =>
    obtain ⟨t, hexec, hend, hcur, hdev⟩ := exec_wrr_ok bankSelAddr 0x00 hr
    have hsel : t.dSel = bankCode t.params 0 := by rw [(hdev hm).1, devStore_sel, bankCode_zero]
    exact ⟨t, congrArg (HostResult.andThen · _) (issue_of_endedOk hexec hend), hcur, dBank_of_bankCode hsel, hend.trace⟩

/-! ### The identity check -/

/-- `WHOAMI` returns the byte at 0x00 of Bank0 (R172). -/
theorem facadeWhoAmI_onMock {s : State} (hm : s.transport = .mock) (h6 : s.AllOk 6)
    (hp : s.params.skipRedundant = false) : ∃ (t : State) (x : Byte), facadeWhoAmI s = (.ok (s.devByte 0 0x00), t) ∧
      t.trace = s.trace ++ selectTokens s.params 0 ++ [.low, .transfer [0x80, 0x00] [x, s.devByte 0 0x00], .high] := by
  obtain ⟨t, ht, htend, h3⟩ := issue_selb_zero (n := 3) hm h6 hp
  obtain ⟨u, x, hu, huend, -⟩ := issue_rdr_atBankZero (n := 0) h3 (a := 0x00) (by decide)
  refine ⟨u, x, ?_, by rw [huend.trace, htend.trace]; rfl⟩
  unfold facadeWhoAmI NamedReg.addr
  rw [ht, andThen_ok, hu, andThen_ok, singleByte]

theorem identityCheck_onMock {s : State} (hm : s.transport = .mock) (h6 : s.AllOk 6)
    (hp : s.params.skipRedundant = false) : ∃ (t : State) (x : Byte),
      identityCheck s = ((if s.devByte 0 0x00 = 0xEA then .ok () else .error .invalidId), t) ∧
      t.trace = s.trace ++ selectTokens s.params 0 ++ [.low, .transfer [0x80, 0x00] [x, s.devByte 0 0x00], .high] := by
  obtain ⟨t, x, ht, htrace⟩ := facadeWhoAmI_onMock hm h6 hp
  refine ⟨t, x, ?_, htrace⟩
  unfold identityCheck
  rw [ht, andThen_ok, whoAmIValue]
  split_ifs <;> rfl

/-! ### SETUP -/

/-- A sequence that is OK: its first part is OK, and then the rest (R170). -/
theorem andThen_eq_ok {α β : Type} {r : HostResult α × State} {f : α → State → HostResult β × State} {b : β} {t : State}
    (h : HostResult.andThen r f = (.ok b, t)) : ∃ a u, r = (.ok a, u) ∧ f a u = (.ok b, t) := by
  obtain ⟨x, u⟩ := r
  cases x with
  | ok a => exact ⟨a, u, rfl, h⟩
  | error e => cases h
  | waiting => cases h

/-- A sequence whose first part is not OK ends with it (R170). -/
theorem andThen_of_ne_ok {r : HostResult Unit × State} (h : r.1 ≠ .ok ())
    (f : Unit → State → HostResult Unit × State) : HostResult.andThen r f = r := by
  obtain ⟨x, u⟩ := r
  cases x with
  | ok a => exact absurd rfl h
  | error e => rfl
  | waiting => rfl

/-- The token of a write that is OK (R60). -/
theorem memWrite_ok_token {a : Addr} {v : Byte} {s t : State} {d : List Byte}
    (h : memWrite .acc a v s = .done (.ok d) t) : t.trace = s.trace ++ [.low, .write [writeAddrByte a, v], .high] := by
  obtain ⟨r, u, hx, hr⟩ := bind_eq_done h
  cases r <;> cases hr
  obtain ⟨-, -, hok⟩ := xact_ok_data hx
  obtain ⟨w, hw, hone, -⟩ := memWrite_ok .acc a v (s := s) hok
  rw [h] at hw
  cases hw
  exact hone.trace

/-- A command that is OK only adds to the trace. -/
theorem issue_trace {i : Instr} {s t : State} {d : List Byte} (h : issue i s = (.ok d, t)) : s.trace <+: t.trace := by
  obtain ⟨u, hu, rfl⟩ := issue_eq_ok h
  have hgrow := commandBody_trace i (latch i s)
  rw [hu] at hgrow
  exact hgrow

/-- The command writes `v` at `a`, raw or in a bank. -/
def writesAt (i : Instr) (a : Addr) (v : Byte) : Prop := i = .wrr a v ∨ ∃ b, i = .wrb b a v

theorem commandAccess_of_writesAt {i : Instr} {a : Addr} {v : Byte} (h : writesAt i a v) :
    commandAccess i = memWrite .acc a v := by
  obtain rfl | ⟨b, rfl⟩ := h <;> rfl

/-- The frame of a write command that is OK is in the trace (R121, R152). -/
theorem issue_write_token {i : Instr} {a : Addr} {v : Byte} (hi : writesAt i a v) {s t : State} {d : List Byte}
    (h : issue i s = (.ok d, t)) : ∃ es, t.trace = s.trace ++ es ∧ Event.write [writeAddrByte a, v] ∈ es := by
  obtain ⟨u, hu, rfl⟩ := issue_eq_ok h
  cases hb : commandBank i with
  | none =>
    rw [commandBody_of_raw hb, commandAccess_of_writesAt hi] at hu
    have htrace := memWrite_ok_token hu
    exact ⟨[.low, .write [writeAddrByte a, v], .high], htrace, by simp⟩
  | some b =>
    rw [commandBody_of_bank hb, commandAccess_of_writesAt hi] at hu
    obtain ⟨r, w, hw, hu⟩ := bind_eq_done hu
    cases r with
    | ok d' =>
      obtain ⟨es, hes, -⟩ := sel_tokens b (latch i s)
      rw [hw] at hes
      refine ⟨es ++ [.low, .write [writeAddrByte a, v], .high], ?_, by simp⟩
      rw [endCommand_trace, memWrite_ok_token hu, ← List.append_assoc]
      exact congrArg (· ++ _) hes
    | comm c => cases hu
    | pin p => cases hu

/-- The frames of all writes of a program that ran to its end are in the trace. -/
theorem runProgram_write_tokens {is : List Instr} {s t : State} {ds : List (List Byte)}
    (h : runProgram is s = (.ok ds, t)) : ∃ es, t.trace = s.trace ++ es ∧
      ∀ i ∈ is, ∀ a v, writesAt i a v → Event.write [writeAddrByte a, v] ∈ es := by
  induction is generalizing s ds with
  | nil => cases h; exact ⟨[], by simp, nofun⟩
  | cons i is ih =>
    obtain ⟨d, u, hi, hrest⟩ := andThen_eq_ok h
    obtain ⟨ds', v, hrun, hv⟩ := andThen_eq_ok hrest
    cases hv
    obtain ⟨es', htrace', htok'⟩ := ih hrun
    obtain ⟨es, hes, htok⟩ : ∃ es, u.trace = s.trace ++ es ∧
        ∀ a v, writesAt i a v → Event.write [writeAddrByte a, v] ∈ es := by
      obtain ⟨es, hes⟩ := issue_trace hi
      refine ⟨es, hes.symm, fun a v hw => ?_⟩
      obtain ⟨es', hes', hmem⟩ := issue_write_token hw hi
      rwa [List.append_cancel_left (hes.trans hes')]
    refine ⟨es ++ es', by rw [htrace', hes, List.append_assoc], fun j hj a v hw => List.mem_append.2 ?_⟩
    obtain rfl | hj := List.mem_cons.1 hj
    · exact .inl (htok a v hw)
    · exact .inr (htok' j hj a v hw)

/-- Settles O59: the identity check is `WHOAMI` and a comparison; a configuration that ran to its end has put the frames
of all its writes on the bus, those it is known to have (R176) among them. -/
theorem identityCheckComparesWhoAmI : Obligations.IdentityCheckComparesWhoAmI := by
  refine ⟨fun s => identityCheck_onMock, fun config s h => andThen_of_ne_ok h _, fun config s t h => ?_⟩
  obtain ⟨⟨⟩, u, hcheck, hrest⟩ := andThen_eq_ok h
  obtain ⟨ds, v, hrun, hv⟩ := andThen_eq_ok hrest
  cases hv
  obtain ⟨es, htrace, htok⟩ := runProgram_write_tokens hrun
  have written {w : SetupWrite} (hw : w ∈ setupWrites 0 config.commands) :
      Event.write [writeAddrByte w.addr, w.value] ∈ es := by
    obtain hi | ⟨b, hi⟩ := setupWrites_mem hw
    · exact htok _ hi _ _ (.inl rfl)
    · exact htok _ hi _ _ (.inr ⟨b, rfl⟩)
  refine ⟨u, es, hcheck, htrace, ?_, fun k => ?_⟩
  · obtain ⟨w, hw, -, haddr⟩ := setupKnown_fifo config.known
    exact ⟨w.value, haddr ▸ written hw⟩
  · obtain ⟨w, hw, -, haddr, hoff⟩ := setupKnown_irq config.known k
    exact ⟨w.value, hoff, haddr ▸ written hw⟩

/-! ### SOFTRESET -/

/-- The tokens of `w` write and `r` read transactions, each asserting and releasing chip-select once. -/
structure Transactions (w r : Nat) (es : List Event) : Prop where
  low : lowCount es = w + r
  high : highCount es = w + r
  write : writeCount es = w
  transfer : transferCount es = r

theorem Transactions.nil : Transactions 0 0 [] := ⟨rfl, rfl, rfl, rfl⟩

theorem Transactions.oneWrite (sent : List Byte) : Transactions 1 0 [.low, .write sent, .high] := ⟨rfl, rfl, rfl, rfl⟩

theorem Transactions.oneRead (sent resp : List Byte) : Transactions 0 1 [.low, .transfer sent resp, .high] :=
  ⟨rfl, rfl, rfl, rfl⟩

theorem Transactions.append {w r w' r' : Nat} {es es' : List Event} (h : Transactions w r es)
    (h' : Transactions w' r' es') : Transactions (w + w') (r + r') (es ++ es') where
  low := by rw [lowCount, List.countP_append, ← lowCount, ← lowCount, h.low, h'.low]; omega
  high := by rw [highCount, List.countP_append, ← highCount, ← highCount, h.high, h'.high]; omega
  write := by rw [writeCount, List.countP_append, ← writeCount, ← writeCount, h.write, h'.write]
  transfer := by rw [transferCount, List.countP_append, ← transferCount, ← transferCount, h.transfer, h'.transfer]

/-- The host sets its attempt counter (R33). -/
def setAttempt (k : Nat) (s : State) : State := { s with host := { s.host with attempt := k } }

/-- The counter is no part of the block or of the device. -/
theorem AtBankZero.setAttempt {n : Nat} {s t : State} (h : AtBankZero n s t) (k : Nat) :
    AtBankZero n s (setAttempt k t) := ⟨⟨h.transport, h.params, h.curBank, h.dBank, h.dSel⟩, h.bytes, h.allOk⟩

/-- An attempt that finds the reset bit set is followed by the others (R174). -/
theorem pollReset_succ {n : Nat} {v : Byte} {t u : State} (hv : v &&& resetBitMask ≠ 0)
    (h : issue (.rdr NamedReg.powerManagement1.addr) (setAttempt (t.host.attempt + 1) t) = (.ok [v], u)) :
    pollReset (n + 1) t = pollReset n u := by
  unfold setAttempt at h
  rw [pollReset, h, andThen_ok, singleByte, andThen_ok, if_neg hv]

/-- The poll gives up after `n` attempts where the reset bit stays (R174, R194). -/
theorem pollReset_givesUp {s : State} (hbit : s.devByte 0 NamedReg.powerManagement1.addr &&& resetBitMask ≠ 0)
    {n : Nat} {t : State} (h : AtBankZero (3 * n) s t) : ∃ (u : State) (es : List Event),
      pollReset n t = (.error .unresponsive, u) ∧ u.host.attempt = t.host.attempt + n ∧ u.trace = t.trace ++ es ∧
      Transactions 0 n es := by
  induction n generalizing t with
  | zero => exact ⟨t, [], rfl, rfl, by simp, .nil⟩
  | succ n ih =>
    have hs : AtBankZero (3 + 3 * n) s (setAttempt (t.host.attempt + 1) t) :=
      (show 3 * (n + 1) = 3 + 3 * n by omega) ▸ h.setAttempt _
    obtain ⟨u, x, hu, hend, hn⟩ := issue_rdr_atBankZero hs (a := NamedReg.powerManagement1.addr) (by decide)
    obtain ⟨v, es, hv, hattempt, htrace, hes⟩ := ih hn
    have hcount : u.host.attempt = t.host.attempt + 1 := hend.ended.keeps.attempt
    refine ⟨v, _ ++ es, (pollReset_succ hbit hu).trans hv, by omega, by rw [htrace, hend.trace, List.append_assoc]; rfl,
      Nat.add_comm 1 n ▸ (Transactions.oneRead _ _).append hes⟩

/-- `WRR a, v` in Bank0: the byte at `a` is `v`, and shadow and device stay in Bank0. -/
theorem issue_wrr_atBankZero {n : Nat} {s t : State} (h : AtBankZero (3 + n) s t) {a : Addr} (ha : a ≠ 0x7F) (v : Byte) :
    ∃ u : State, issue (.wrr a v) t = (.ok [], u) ∧ EndedOk 3 [] [.low, .write [writeAddrByte a, v], .high] t u ∧
      u.devByte 0 a = v ∧ AtBankZero n u u := by
  obtain ⟨u, hexec, hend, hcur, hdev⟩ := exec_wrr_ok a v (AllOk.mono h.allOk (by omega))
  obtain ⟨usel, umem⟩ := hdev h.transport
  have hkeeps := hend.ended.keeps
  have hsel : u.dSel = t.dSel := by rw [usel, devStore_reg ha]
  have hparams := hkeeps.params.trans h.params
  refine ⟨u, issue_of_endedOk hexec hend, hend, ?_, ⟨hkeeps.transport.trans h.transport, rfl, hcur.trans h.curBank,
    (dBank_congr hsel hkeeps.params).trans h.dBank, fun hk => ?_⟩, fun _ _ => rfl, AllOk.shift h.allOk hend.answers⟩
  · rw [devByte_congr usel umem, ← h.dBank]
    exact devStore_same a v t
  · rw [hparams] at hk ⊢
    exact hsel.trans (h.dSel hk)

/-- Settles O60: the select and the reset write, then ten reads of the byte written, whose reset bit is set. -/
theorem softResetGivesUpAfterTenAttempts : Obligations.SoftResetGivesUpAfterTenAttempts := by
  intro s hm h36 hp
  obtain ⟨t, ht, htend, h33⟩ := issue_selb_zero (n := 33) hm h36 hp
  obtain ⟨u, hu, huend, hbyte, h30⟩ :=
    issue_wrr_atBankZero (n := 30) h33 (a := NamedReg.powerManagement1.addr) (by decide) resetBitMask
  have hbit : u.devByte 0 NamedReg.powerManagement1.addr &&& resetBitMask ≠ 0 := by rw [hbyte]; decide
  obtain ⟨v, es, hv, hattempt, htrace, hes⟩ := pollReset_givesUp hbit (n := pollBound) (h30.setAttempt 0)
  have htotal : Transactions 2 10 (selectTokens s.params 0 ++ ([.low, .write [0x06, 0x80], .high] ++ es)) :=
    (Transactions.oneWrite _).append ((Transactions.oneWrite _).append hes)
  have hrun : facadeSoftReset s = (.error .unresponsive, v) := by
    unfold setAttempt at hv
    rw [facadeSoftReset, ht, andThen_ok, hu, andThen_ok, hv]
  have htokens : v.trace = s.trace ++ (selectTokens s.params 0 ++ ([.low, .write [0x06, 0x80], .high] ++ es)) := by
    rw [htrace, show (setAttempt 0 u).trace = u.trace from rfl, huend.trace, htend.trace, List.append_assoc,
      List.append_assoc]
    rfl
  exact ⟨v, _, hrun, hattempt, htokens, htotal.low, htotal.high, htotal.write, htotal.transfer⟩

end Sys2Proof.Proofs
end

section
/-! SUPPORT. The statements of 44_sequencer.md. No row of the transition table touches the RST port or the host's index,
so that the machine takes the sequencer's steps one by one until the command has ended (`stepN_eq_seqSteps`). That the
sequencer reaches the command rule's state is `exec_eq_seqSteps`; a command waits or returns as its two transactions
do. -/

namespace Sys2Proof.Proofs

open Sys2Proof.Machine Sys2Proof.Laws

/-! ### The RST port and the host's index -/

/-- The RST port (R11) and the host's index (R33), neither of which a command in progress touches. -/
def rstAndIndex (s : State) : Bool × Nat := (s.rst, s.host.next)

@[simp] theorem rstAndIndex_setPh (p : Phase) (s : State) : rstAndIndex (s.setPh p) = rstAndIndex s := rfl
@[simp] theorem rstAndIndex_setPend (q : Pend) (s : State) : rstAndIndex (s.setPend q) = rstAndIndex s := rfl
@[simp] theorem rstAndIndex_setCurBank (b : Bank) (s : State) : rstAndIndex (s.setCurBank b) = rstAndIndex s := rfl
@[simp] theorem rstAndIndex_lowOk (s : State) : rstAndIndex (lowOk s) = rstAndIndex s := by simp [rstAndIndex, lowOk]
@[simp] theorem rstAndIndex_lowFail (e : Nat) (s : State) : rstAndIndex (lowFail e s) = rstAndIndex s := by
  simp [rstAndIndex, lowFail]
@[simp] theorem rstAndIndex_highOk (s : State) : rstAndIndex (highOk s) = rstAndIndex s := by
  simp [rstAndIndex, highOk]
@[simp] theorem rstAndIndex_highFail (e : Nat) (s : State) : rstAndIndex (highFail e s) = rstAndIndex s := by
  simp [rstAndIndex, highFail]
@[simp] theorem rstAndIndex_dataOk (d : Bool) (s : State) : rstAndIndex (dataOk d s) = rstAndIndex s := by
  cases d <;> simp [rstAndIndex, dataOk]
@[simp] theorem rstAndIndex_dataFail (d : Bool) (e : Nat) (s : State) :
    rstAndIndex (dataFail d e s) = rstAndIndex s := by cases d <;> simp [rstAndIndex, dataFail]
@[simp] theorem rstAndIndex_endCommand (r : Response) (s : State) : rstAndIndex (endCommand r s) = rstAndIndex s := by
  simp [rstAndIndex]
@[simp] theorem rstAndIndex_raise (e : Exc) (s : State) : rstAndIndex (raise e s) = rstAndIndex s := by
  cases e <;> simp [rstAndIndex, raise]
@[simp] theorem rstAndIndex_loadAccessFrame (s : State) : rstAndIndex s.loadAccessFrame = rstAndIndex s := by
  unfold State.loadAccessFrame; split_ifs <;> rfl

/-- Rows T2 and T3, T6b and T6c. -/
@[simp] theorem rstAndIndex_afterSelect (s : State) : rstAndIndex (afterSelect s) = rstAndIndex s := by
  unfold afterSelect
  split
  · exact rstAndIndex_endCommand _ s
  · simp

/-- Rows T1 to T3. -/
theorem rstAndIndex_accept {w : CmdWord} {i : Instr} (h : decode w = .cmd i) (s : State) :
    rstAndIndex (accept w s) = rstAndIndex s := by
  rw [accept_cmd h]
  split
  · rfl
  · exact rstAndIndex_afterSelect (latch i s)

/-- Rows T4 and T7. -/
theorem rstAndIndex_seqLow (leg : Leg) (s : State) : rstAndIndex (seqLow leg s) = rstAndIndex s := by
  obtain h | h | ⟨e, h⟩ | ⟨e, h⟩ := seqLow_run leg s <;> simp [h]

/-- Rows T5 and T8. -/
theorem rstAndIndex_seqData (leg : Leg) (d : Bool) (s : State) : rstAndIndex (seqData leg d s) = rstAndIndex s := by
  obtain h | h | ⟨e, h⟩ := seqData_run leg d s <;> simp [h]

/-- Rows T6 and T9, for a continuation `ok` that keeps them. -/
theorem rstAndIndex_seqHigh {ok : State → State} (hok : ∀ t, rstAndIndex (ok t) = rstAndIndex t) (s : State) :
    rstAndIndex (seqHigh ok s) = rstAndIndex s := by
  obtain h | ⟨t, ht, hrest⟩ := seqHigh_run ok s
  · rw [h]
  · have hst : rstAndIndex t = rstAndIndex s := by obtain rfl | ⟨e, rfl⟩ := ht <;> simp
    obtain ⟨-, -, h⟩ | ⟨c, h⟩ | ⟨p, h⟩ := hrest <;> simp [h, hok, hst]

/-- Rows T6b and T6c. -/
theorem rstAndIndex_seqSelected (s : State) : rstAndIndex (seqSelected s) = rstAndIndex s := by
  simp [seqSelected_eq]

/-- Rows T9b and T9c. -/
theorem rstAndIndex_seqAccessed (s : State) : rstAndIndex (seqAccessed s) = rstAndIndex s := by
  unfold seqAccessed
  split <;> exact rstAndIndex_endCommand _ s

theorem rstAndIndex_seqStep (s : State) : rstAndIndex (seqStep s) = rstAndIndex s := by
  cases h : s.ph with
  | idle => rw [seqStep, h]
  | sLow => rw [seqStep_sLow h, rstAndIndex_seqLow]
  | sData => rw [seqStep_sData h, rstAndIndex_seqData]
  | sHigh => rw [seqStep_sHigh h, rstAndIndex_seqHigh rstAndIndex_seqSelected]
  | aLow => rw [seqStep_aLow h, rstAndIndex_seqLow]
  | aData => rw [seqStep_aData h, rstAndIndex_seqData]
  | aHigh => rw [seqStep_aHigh h, rstAndIndex_seqHigh rstAndIndex_seqAccessed]

theorem rst_of_rstAndIndex {s t : State} (h : rstAndIndex t = rstAndIndex s) : t.rst = s.rst := congrArg Prod.fst h

/-! ### The machine's own steps -/

/-- Out of reset and of IDLE a step is one step of the sequencer (R185). -/
theorem step_continues {s : State} (hr : s.rst = false) (hp : s.ph ≠ .idle) : step s = .next (seqStep s) := by
  simp [step, hr, hp]

/-- Settles O12: no row of the transition table moves the host's index. -/
theorem stepContinuesTheCommandInProgress : Obligations.StepContinuesTheCommandInProgress := fun s hr hp =>
  ⟨step_continues hr hp, congrArg Prod.snd (rstAndIndex_seqStep s)⟩

theorem stepN_succ {n : Nat} {s t : State} (h : step s = .next t) : stepN (n + 1) s = stepN n t := by rw [stepN, h]

/-- The machine's steps up to the end of the command are those of the sequencer; past it the sequencer has no step to
take, but the machine would accept the next word. -/
theorem stepN_eq_seqSteps (k : Nat) {s : State} (hr : s.rst = false) : ∃ n ≤ k, stepN n s = .next (seqSteps k s) := by
  induction k generalizing s with
  | zero => exact ⟨0, Nat.le_refl 0, rfl⟩
  | succ k ih =>
    by_cases hp : s.ph = .idle
    · exact ⟨0, Nat.zero_le _, by rw [seqSteps_idle hp]; rfl⟩
    · obtain ⟨n, hn, h⟩ := ih ((rst_of_rstAndIndex (rstAndIndex_seqStep s)).trans hr)
      exact ⟨n + 1, Nat.succ_le_succ hn, (stepN_succ (step_continues hr hp)).trans h⟩

/-- Settles O46: `exec_eq_seqSteps`, in which each leg of three steps is one transaction of the command rule. -/
theorem sequencerRefinesTheCommandRules : Obligations.SequencerRefinesTheCommandRules := fun _ _ s h =>
  exec_eq_seqSteps h s

/-- Settles O14: one step accepts the word, at most six take the sequencer to where the command rule leads. -/
theorem stepsReachTheCommandRule : Obligations.StepsReachTheCommandRule := by
  intro s w i hr hp hg hstopped hprog hd
  have haccept : step s = .next (accept w s.taken) := step_accepts hr hp (presented_eq_some hstopped hprog) hg
  have hrst : (accept w s.taken).rst = false := (rst_of_rstAndIndex (rstAndIndex_accept hd s.taken)).trans hr
  obtain ⟨n, hn, h⟩ := stepN_eq_seqSteps 6 hrst
  exact ⟨n + 1, _, Nat.le_add_left 1 n, Nat.succ_le_succ hn, (stepN_succ haccept).trans h, exec_eq_seqSteps hd s.taken⟩

/-! ### A command whose invocations are answered -/

/-- The access of a command returns if its three invocations are answered and its frame has a meaning. -/
theorem commandAccess_returns {i : Instr} {s : State} (hs : s.Served i) (ha : s.Answered 3) :
    ∃ r u, commandAccess i s = .done r u := by
  by_cases hi : ∃ b, i = .selb b
  · obtain ⟨b, rfl⟩ := hi
    exact ⟨_, _, rfl⟩
  · obtain ⟨x, n, hf, e⟩ := commandAccess_xact (not_exists.mp hi) s
    obtain ⟨r, u, hx⟩ := xact_returns (leg := .acc) (s := s.setFrame x n) ha (hf.served hs)
    exact ⟨_, _, by rw [e, hx]; rfl⟩

/-- A command returns if six invocations are answered: three for its select, three for its access. -/
theorem commandBody_returns {i : Instr} {s : State} (hs : s.Served i) (ha : s.Answered 6) :
    ∃ r u, commandBody i s = .done r u := by
  have h3 : s.Answered 3 := Answered.mono ha (by omega)
  cases hb : commandBank i with
  | none =>
    rw [commandBody_of_raw hb]
    exact commandAccess_returns hs h3
  | some b =>
    cases hskip : s.skips b with
    | true =>
      rw [commandBody_of_bank hb, selThen_ok (sel_skips hskip)]
      exact commandAccess_returns hs h3
    | false =>
      by_cases hok : s.AllOk 3
      · obtain ⟨u, hu, hone, -⟩ := sel_ok b hskip hok
        rw [commandBody_of_bank hb, selThen_ok hu]
        exact commandAccess_returns (fun hm => hs (hone.transport.symm.trans hm))
          (Answered.shift (n := 3) ha hone.answers)
      · obtain ⟨r, u, -, hbody, -⟩ := commandBody_of_failedSelect hb hskip h3 hok
        exact ⟨r, u, hbody⟩

/-- Settles O47: the sequencer leads where the command rule leads, and there the command has returned. -/
theorem everyCommandEndsInSevenSteps : Obligations.EveryCommandEndsInSevenSteps := by
  intro w i s hd hs ha
  obtain ⟨r, u, hbody⟩ := commandBody_returns (s := latch i s) hs ha
  obtain ⟨hexec, hend⟩ := exec_of_body hbody
  have heq := (exec_eq_seqSteps hd s).symm.trans hexec
  injection heq with heq
  exact ⟨_, heq ▸ hend⟩

/-! ### A command that meets an invocation that is never answered -/

/-- The phase in which a transaction waits that begins after `m` invocations (R61). -/
theorem stall_shift {s u : State} {m : Nat} (hp : u.params = s.params) (h : ∀ k, u.answerAt k = s.answerAt (k + m)) :
    u.stall 0 = s.stall m := by
  unfold State.stall
  simp only [h, hp, Nat.zero_add, Nat.add_comm _ m, Nat.add_zero]

/-- A transaction that waits, waits for ever (R189), whatever the phase before it. -/
theorem xact_waiting_fix {leg : Leg} {d : Bool} {ok : State → State} {op : BitVec 3} {s t : State}
    (hl : LegSteps leg d ok op) (h : xact leg d s = .waiting t) (hop : s.cOp = op) : seqStep t = t := by
  subst hop
  exact leg_stuck (s := s.setPh leg.low) hl rfl h

/-- A select that meets a silence waits in its phase for ever. -/
theorem sel_stall {b : Bank} {s : State} {f : Leg → Phase} (hskip : s.skips b = false) (h : s.stall 0 = some f) :
    ∃ t, sel b s = .waiting t ∧ t.ph = f .sel ∧ seqStep t = t := by
  obtain ⟨t, hx, hp⟩ := xact_stall (leg := .sel) (d := false)
    (s := s.setFrame (loadWrite bankSelAddr (bankCode s.params b) s.xb) .two) h rfl
  refine ⟨t, ?_, hp, xact_waiting_fix (selSteps s.cOp) hx rfl⟩
  unfold sel memWrite
  rw [if_neg (by simp [hskip]), hx]
  rfl

/-- The access of the latched command that meets a silence waits in its phase for ever. -/
theorem commandAccess_stall {i : Instr} (hi : ∀ b, i ≠ .selb b) {s : State} {f : Leg → Phase} (hl : Latched i s)
    (hs : s.Served i) (h : s.stall 0 = some f) :
    ∃ t, commandAccess i s = .waiting t ∧ t.ph = f .acc ∧ seqStep t = t := by
  obtain ⟨x, n, hf, e⟩ := commandAccess_xact hi s
  obtain ⟨t, hx, hp⟩ := xact_stall (leg := .acc) (s := s.setFrame x n) h (hf.served hs)
  exact ⟨t, by rw [e, hx]; rfl, hp, xact_waiting_fix (accSteps i.fields.op) hx hl.op⟩

/-- A command whose body waits where the sequencer has no step to take, waits for ever (R189, R238). -/
theorem waitsIn_of_body {i : Instr} {s : State} {p : Phase}
    (h : ∃ t, commandBody i (latch i s) = .waiting t ∧ t.ph = p ∧ seqStep t = t) : WaitsIn i s p := by
  obtain ⟨t, hbody, hp, hfix⟩ := h
  have hk := (latch_body i s).trans (commandBody_body i (latch i s))
  have htr := commandBody_trace i (latch i s)
  rw [hbody, ranState_waiting] at hk htr
  refine ⟨t, by rw [exec_eq, runCommand_waiting hbody], hp, hk.rsps, htr, fun hr => ?_⟩
  rw [step_continues (hk.rst.trans hr) (commandBody_waiting_ne_idle hbody), hfix]

/-- A command whose select is OK in state `u` and whose access then meets a silence. -/
theorem waitsIn_access {i : Instr} {b : Bank} {s u : State} {d : List Byte} {f : Leg → Phase}
    (hb : commandBank i = some b) (hne : i ≠ .selb b) (hu : sel b (latch i s) = .done (.ok d) u) (hl : Latched i u)
    (hs : u.Served i) (h : u.stall 0 = some f) : WaitsIn i s (f .acc) := by
  have hi (b' : Bank) : i ≠ .selb b' := by rintro rfl; cases hb; exact hne rfl
  apply waitsIn_of_body
  rw [commandBody_of_bank hb, selThen_ok hu]
  exact commandAccess_stall hi hl hs h

/-- A raw command whose first invocation is not answered waits with the trace as it was. -/
theorem raw_lowSilent_trace {i : Instr} {s : State} (hi : commandBank i = none) (h0 : s.answerAt 0 = .silent) :
    ∃ t : State, exec i s = .next t ∧ t.trace = s.trace := by
  obtain ⟨x, n, -, e⟩ := commandAccess_xact (ne_selb_of_raw hi) (latch i s)
  rw [xact_eq_of_run (s := (latch i s).setFrame x n) (.lowSilent h0), bind_waiting, ← commandBody_of_raw hi] at e
  exact ⟨_, exec_eq i s, by rw [runCommand_waiting e]; rfl⟩

/-- Settles O33: the transaction that meets the silence is the access of a raw command, the select, or the access after
a select that is OK or skipped. -/
theorem unansweredCommandWaitsForEver : Obligations.UnansweredCommandWaitsForEver := by
  refine ⟨fun i s f hi hs h => waitsIn_of_body ?_, fun i b s f hb hskip h => waitsIn_of_body ?_,
    fun i b s f hb hne hskip hs h3 h => ?_, fun i b s f hb hne hskip hs h => ?_,
    fun i s hi h0 => raw_lowSilent_trace hi h0⟩
  · rw [commandBody_of_raw hi]
    exact commandAccess_stall (ne_selb_of_raw hi) (latched_latch i s) hs h
  · obtain ⟨t, ht, hp, hfix⟩ := sel_stall (s := latch i s) hskip h
    refine ⟨t, ?_, hp, hfix⟩
    rw [commandBody_of_bank hb, selThen, ht]
    rfl
  · obtain ⟨u, hu, hone, -⟩ := sel_ok b (s := latch i s) hskip h3
    obtain ⟨hop, hbank, haddr, hdata⟩ := hone.latches
    exact waitsIn_access hb hne hu ⟨hop, hbank, haddr, hdata⟩ (fun hm => hs (hone.transport.symm.trans hm))
      ((stall_shift (s := s) hone.params hone.answers).trans h)
  · exact waitsIn_access hb hne (sel_skips (s := latch i s) hskip) (latched_latch i s) hs h

end Sys2Proof.Proofs
end

section
/-! SUPPORT. The statements of 60_exceptions.md: the illegal word. In either grain the step is `raise .illegal`, which
sends one response and touches nothing else. -/

namespace Sys2Proof.Proofs

open Sys2Proof.Machine Sys2Proof.Laws

/-- A step that finds an illegal word takes the exception ILLEGAL, whatever its grain (R192, log 15). -/
theorem step_raises_illegal {s : State} {w : CmdWord} {why : IllegalReason} (hr : s.rst = false) (hp : s.ph = .idle)
    (hw : s.presented = some w) (hd : decode w = .illegal why) : step s = .next (raise .illegal s.taken) := by
  cases hg : s.grain with
  | invocation => rw [step_accepts hr hp hw hg, accept_illegal hd]
  | command => simp [step, hr, hp, hw, hg, hd]

/-- What a host does with a response does not depend on its index (R170). -/
theorem receive_setNext (r : Response) (h : HostState) (n : Nat) :
    HostState.receive r { h with next := n } = { h.receive r with next := n } := by
  unfold HostState.receive
  split <;> rfl

/-- A running host that receives a response other than OK has stopped unless it goes on (R170, R205). -/
theorem receive_stopped_of_ne_ok {r : Response} {h : HostState} (hr : r.status ≠ .ok) (hs : h.stopped = false) :
    (h.receive r).stopped = !h.goesOn := by
  cases hg : h.goesOn with
  | true => rw [HostState.receive, if_pos (.inr hg), hs]; rfl
  | false => rw [HostState.receive, if_neg (by simp [hr, hg])]; rfl

/-- ILLEGAL at the acceptance of a word: one response is sent and received, and the index is past the word. -/
theorem raise_illegal_taken (s : State) :
    raise .illegal s.taken = { s with
      rsps := s.rsps ++ [⟨.illegal, []⟩]
      host := { s.host.receive ⟨.illegal, []⟩ with next := s.host.next + 1 } } := by
  rw [← receive_setNext]
  rfl

/-- Settles O13: the step is the exception ILLEGAL, which is one response sent to a host that was running. -/
theorem illegalWordIsAnsweredWithoutEffect : Obligations.IllegalWordIsAnsweredWithoutEffect := by
  intro s w why hr hp hs hprog hd
  refine ⟨?_, rfl, rfl, receive_stopped_of_ne_ok nofun hs⟩
  rw [step_raises_illegal hr hp (presented_eq_some hs hprog) hd, raise_illegal_taken]

end Sys2Proof.Proofs
end

section
/-! SUPPORT. The statements of 70_reset_and_hazards.md: RST, the idle block, and the write to 0x7F that the shadow does
not see. -/

namespace Sys2Proof.Proofs

open Sys2Proof.Machine Sys2Proof.Laws

/-! ### RST and IDLE -/

/-- A step that finds RST asserted resets, in any phase (R220, R223). -/
theorem step_resets {s : State} (hr : s.rst = true) : step s = .next (assertRst s) := if_pos hr

/-- RST leaves every register of the device (R221). -/
theorem sameDevice_assertRst (s : State) : SameDevice s (assertRst s) :=
  SameDevice.of_eq (assertRst_dSel s) (assertRst_mem s)

/-- Settles O9: the step is `assertRst`, field by field. -/
theorem rstResetsTheBlockAndNothingElse : Obligations.RstResetsTheBlockAndNothingElse := fun s hr =>
  ⟨assertRst s, step_resets hr, assertRst_curBank s, assertRst_ph s, assertRst_pend s, assertRst_rsps s,
    assertRst_trace s, assertRst_cs s, sameDevice_assertRst s, assertRst_params s, assertRst_host s,
    assertRst_transport s, assertRst_script s⟩

/-- Settles O10: of the branches of a step, this is the one with no word presented. -/
theorem idleBlockWaitsForCommand : Obligations.IdleBlockWaitsForCommand := by
  intro s hr hp hw
  rw [step, hr, if_neg Bool.false_ne_true, if_pos hp, hw]

/-! ### A write to the bank-select register that is not a select -/

/-- After a select that is OK, done or skipped, the shadow is the bank asked for (R22, R141). -/
theorem sel_ok_curBank {b : Bank} {s u : State} {d : List Byte} (h : sel b s = .done (.ok d) u) : u.curBank = b := by
  obtain ⟨hs, e⟩ | ⟨-, ⟨t, -, e⟩ | ⟨d', t, -, e⟩ | ⟨c, t, -, e⟩ | ⟨p, t, -, e⟩⟩ := sel_cases b s <;>
    rw [e] at h <;> cases h
  · exact (skips_eq_true_iff.mp hs).2
  · rfl

/-- `WRR 0x7F, v` on the mock: the selection is `v`, and `d_reg` and the shadow are as before (R229). -/
theorem exec_wrr_sel (v : Byte) {s : State} {n : Nat} (hm : s.transport = .mock) (h : s.AllOk (3 + n)) :
    ∃ t : State, exec (.wrr 0x7F v) s = .next t ∧ Ended s t ⟨.ok, []⟩ ∧ t.curBank = s.curBank ∧ t.dSel = v ∧
      t.mem = s.mem ∧ t.AllOk n := by
  obtain ⟨t, hexec, hend, hcur, hdev⟩ := exec_wrr_ok bankSelAddr v (AllOk.mono h (by omega))
  rw [devStore_sel] at hdev
  obtain ⟨tsel, tmem⟩ := hdev hm
  exact ⟨t, hexec, hend.ended, hcur, tsel, tmem, AllOk.shift h hend.answers⟩

/-- `WRB b, 0x7F, v` on the mock, its select done or skipped: the selection is `v` and the shadow `b` (R229). -/
theorem exec_wrb_sel (b : Bank) (v : Byte) {s : State} (hm : s.transport = .mock) (h6 : s.AllOk 6) :
    ∃ t : State, exec (.wrb b 0x7F v) s = .next t ∧ Ended s t ⟨.ok, []⟩ ∧ t.curBank = b ∧ t.dSel = v := by
  obtain ⟨u, hu, utransport, u3⟩ := sel_noFailure b (s := latch (.wrb b 0x7F v) s) (n := 3) h6
  obtain ⟨t, hexec, hend, hdev⟩ := exec_wrb hu u3
  obtain ⟨tsel, -⟩ := hdev (utransport.trans hm)
  have hstore : (u.devStore 0x7F v).dSel = v := congrArg State.dSel (devStore_sel v u)
  exact ⟨t, hexec, hend.ended, hend.curBank.trans (sel_ok_curBank hu), tsel.trans hstore⟩

/-- The bank the mock applies is the field of its selection, with the parameters a command has kept (R35). -/
theorem dBank_of_ended {s t : State} {r : Response} {v : Byte} (hend : Ended s t r) (hsel : t.dSel = v) :
    t.dBank = bankField s.params v := by rw [State.dBank, hsel, hend.keeps.params]

/-- A byte the mock then reads: the selection at 0x7F, elsewhere the byte `d_reg` held (R35, R36). -/
theorem devByte_of_sel {s t : State} {v : Byte} (hsel : t.dSel = v) (hmem : t.mem = s.mem) (b : Bank) (a : Addr) :
    t.devByte b a = if a = 0x7F then v else s.devByte b a := by
  split
  next h => subst h; exact (devByte_sel t b).trans hsel
  next h => exact devByte_of_mem hmem h b

/-- Settles O53: the write moves the selection alone, and the read that follows is of the bank in its field. -/
theorem bankSelectRegisterWriteBypassesTheShadow : Obligations.BankSelectRegisterWriteBypassesTheShadow := by
  refine ⟨fun v a s hm h6 => ?_, fun b v s hm h6 => ?_⟩
  · obtain ⟨t, hwrite, hend, hcur, hsel, hmem, t3⟩ := exec_wrr_sel v (n := 3) hm h6
    have hbank := dBank_of_ended hend hsel
    obtain ⟨u, -, y, hread, uend, -, hbyte, -⟩ := rdrReturnsTheSecondResponseByte a t t3
    have hy : y = if a = 0x7F then v else s.devByte (bankField s.params v) a := by
      rw [(hbyte (hend.keeps.transport.trans hm)).1, hbank, devByte_of_sel hsel hmem]
    refine ⟨t, u, hwrite, hcur, hsel, hbank, hread, ?_⟩
    rw [uend.rsps, hend.rsps, hy, List.append_assoc]
    rfl
  · obtain ⟨t, hexec, hend, hcur, hsel⟩ := exec_wrb_sel b v hm h6
    exact ⟨t, hexec, hcur, hsel, dBank_of_ended hend hsel⟩

end Sys2Proof.Proofs
end
